-- ==== Sys2Proof/Word.lean ====
section
/-!
DEFINITION. The word types of TRXSEQ: data bytes and register addresses of the Register Access Port
(20_memory.md R45, R52), and the 16-bit sequence counter (10_state.md R29). Every value is unsigned (00_scope.md R10).
-/

namespace Sys2Proof

/-- A data byte or a command byte of the port (`byte8`, 00_scope.md R10, R12). -/
abbrev Byte := BitVec 8

/-- A transceiver register address (`addr16`, 20_memory.md R45). -/
abbrev Addr := BitVec 16

/-- A value of the sequence counter (`u16`, 10_state.md R29). -/
abbrev SeqNum := BitVec 16

end Sys2Proof
end

