-- ==== Sys2Proof/Config.lean ====
section
/-!
DEFINITION. What an implementation fixes (the parameters of 00_scope.md R7 and their constraints R8) and the free values:
the radio's answers, the environment's choices, an admitted configuration, a length byte that is not there.
A free value is an opaque constant with no body: nothing can be proved of what it is.
-/

namespace Sys2Proof

/-- MODE (R7): transmit or receive service, "mutually exclusive operating modes". -/
inductive Mode where
  | tx
  | rx
deriving DecidableEq, Repr, Inhabited

/-- PAYLOAD (R7), a function of the 16-bit sequence value, as data: the payload of the values listed, and the payload of
every other value (log entry 3). -/
structure PayloadTable where
  listed : List (SeqNum × List Byte)
  otherwise : List Byte
deriving DecidableEq, Repr, Inhabited

/-- The parameters of 00_scope.md R7. R8(e) and R8(g) hold by the fields' widths. -/
structure Params where
  mode : Mode
  regProfile : List (Addr × Byte)
  aVcoCap : Addr
  aCalCtrl : Addr
  aFsVco2 : Addr
  aFsVco4 : Addr
  aFsChp : Addr
  aMarcState : Addr
  aNumRxBytes : Addr
  cmdScal : Byte
  cmdStx : Byte
  cmdSrx : Byte
  cmdSfrx : Byte
  vcdacStartOffset : Byte
  marcSettled : Byte
  fifoErrCode : BitVec 5
  /-- CAL_POLL_LIMIT; `none` is INF. -/
  calPollLimit : Option Nat
  fifoCapacity : Nat
  /-- RX_BUF_CAP; "RX_BUF_CAP defaults to FIFO_CAPACITY" (R7, 92_eei_decisions.md D36). -/
  rxBufCap : Nat := fifoCapacity
  pktLenMax : Nat
  payload : PayloadTable
  /-- INTER_PACKET_DELAY, a duration in a unit the spec does not fix; no effect on state (R123, log entry 17). -/
  interPacketDelay : Nat
  /-- WDT_PERIOD, as above; no effect on any rule (R140). -/
  wdtPeriod : Nat
deriving DecidableEq, Repr, Inhabited

/-- R8(d): every payload leaves room for the length byte and the two sequence bytes. -/
def PayloadTable.fits (t : PayloadTable) (maxLen : Nat) : Bool :=
  decide (t.otherwise.length ≤ maxLen) && t.listed.all fun e => decide (e.2.length ≤ maxLen)

/-- The configuration constraints of R8: (a), (b) and (c) the capacities, (d) the payloads, (f) the poll bound. -/
def Params.admitted (p : Params) : Bool :=
  decide (3 ≤ p.pktLenMax) && decide (p.pktLenMax < p.fifoCapacity) && decide (p.fifoCapacity ≤ 255)
    && decide (p.fifoCapacity ≤ p.rxBufCap) && decide (p.rxBufCap ≤ 255)
    && p.payload.fits (p.pktLenMax - 3)
    && p.calPollLimit != some 0

/-- A configuration: parameters that R8 admits ("a model refuses (does not instantiate) any other configuration"). -/
structure Config where
  params : Params
  ok : params.admitted = true
deriving DecidableEq, Repr

/-- Instantiating TRXSEQ with parameters: none where R8 does not admit them. -/
def Config.instantiate (p : Params) : Option Config :=
  if h : p.admitted = true then some ⟨p, h⟩ else none

/-- The smallest admitted configuration, so that the type of configurations is inhabited (log entry 2). -/
def Config.smallest : Config where
  params :=
    { mode := .tx, regProfile := [], aVcoCap := 0, aCalCtrl := 0, aFsVco2 := 0, aFsVco4 := 0, aFsChp := 0
      aMarcState := 0, aNumRxBytes := 0, cmdScal := 0, cmdStx := 0, cmdSrx := 0, cmdSfrx := 0
      vcdacStartOffset := 0, marcSettled := 0, fifoErrCode := 0, calPollLimit := none, fifoCapacity := 4
      pktLenMax := 3, payload := ⟨[], []⟩, interPacketDelay := 0, wdtPeriod := 0 }
  ok := rfl

/-- The reference profile's three values (R9); no other parameter has one. -/
abbrev Config.referenceVcdacStartOffset : Byte := 2

/-- See `Config.referenceVcdacStartOffset`. -/
abbrev Config.referenceMarcSettled : Byte := 0x41

/-- See `Config.referenceVcdacStartOffset`. -/
abbrev Config.referencePktLenMax : Nat := 5

/-- FREE VALUE: the parameters an implementation chose (R7; log entry 2). -/
opaque Config.freeParams : Params

/-- The configuration a machine that nobody configured has: any admitted one (log entry 2). -/
def Config.free : Config :=
  (Config.instantiate Config.freeParams).getD Config.smallest

/-- FREE VALUE: the radio's `k`-th answer where no answer is listed (40_sequencer.md R83; log entry 4). -/
opaque Config.radioByte : Nat → Byte

/-- FREE VALUE: which agent takes the `k`-th turn where no turn is listed (40_sequencer.md R79; log entry 5): `none` the
sequencer, `some e` the event of code `e` (30_encoding.md R68). -/
opaque Config.environment : Nat → Option (BitVec 2)

/-- FREE VALUE: the length byte of a drained packet that has no byte (hand-built states only; log entry 15). -/
opaque Config.absentLengthByte : Byte

end Sys2Proof
end

