-- ==== Sys2Proof/Syntax.lean ====
section
/-!
DEFINITION. What TRXSEQ's opcode table lists: the three encoded formats with rows (30_encoding.md R62: PHASE, EVENT,
PORT), one constructor of `Instr` per row, and the records a packed port word stands for (R69).
-/

namespace Sys2Proof

/-- The formats of 30_encoding.md R62 that have rows in the opcode table (the fourth, WIRE, is the packet layout of R71). -/
inductive Format where
  | phase
  | event
  | port
deriving DecidableEq, Repr

/-- The fixed width of a format (R62). -/
def Format.width : Format → Nat
  | .phase => 5
  | .event => 2
  | .port => 32

/-- One constructor per row of spec/opcode_table.json. A phase or an event has no operand field (R63, R73); a port word
carries its address and data (R69). -/
inductive Instr where
  -- PHASE codes, R63
  | config
  | calBeginHigh
  | calPollHigh
  | calSnapHigh
  | calBeginMid
  | calPollMid
  | calSnapMid
  | calApply
  | txArm
  | txWait
  | txComplete
  | txDelay
  | rxArm
  | rxWait
  | rxInspect
  | rxDrain
  | rxFlush
  | halt
  /-- RESERVED, row 1001x: code 0x12 or 0x13, `low` its bit 0 (R64). -/
  | reserved12 (low : BitVec 1)
  /-- RESERVED, row 101xx: codes 0x14 to 0x17, `low` their bits 1:0 (R64). -/
  | reserved14 (low : BitVec 2)
  /-- RESERVED, row 11xxx: codes 0x18 to 0x1F, `low` their bits 2:0 (R64). -/
  | reserved18 (low : BitVec 3)
  -- EVENT codes, R68
  | resetPor
  | resetWdt
  | edge
  | isr
  -- PORT words, R69
  | portRead (a : Addr) (d : Byte)
  | portWrite (a : Addr) (d : Byte)
  | portStrobe (c : Byte)
  | portRfifo (n : Byte)
  | portWfifo (n : Byte)
  | portFdata (b : Byte)
  /-- PORT_RESERVED: the whole word, of kind 0x0 or 0x7 to 0xF (R70 and the table's note). -/
  | portReserved (w : BitVec 32)
deriving DecidableEq, Repr

/-- One port transaction: the first five record kinds of TRACE (20_memory.md R44). -/
inductive PortRecord where
  | read (a : Addr) (d : Byte)
  | write (a : Addr) (d : Byte)
  | strobe (c : Byte)
  | readFifo (n : Byte) (bs : List Byte)
  | writeFifo (bs : List Byte)
deriving DecidableEq, Repr

/-- One packed port word whose fields stand as R69 says. -/
inductive PortWord where
  | read (a : Addr) (d : Byte)
  | write (a : Addr) (d : Byte)
  | strobe (c : Byte)
  | rfifo (n : Byte)
  | wfifo (n : Byte)
  | fdata (b : Byte)
  | reserved (w : BitVec 32)
deriving DecidableEq, Repr

end Sys2Proof
end

