-- ==== Sys2Proof/WellFormed.lean ====
section
/-!
DEFINITION. Which instructions and which records are well formed: a burst header counts at least one byte
(30_encoding.md R70), a reserved port word has a reserved kind (R69), and a FIFO record's count is its number of bytes
(20_memory.md R44).
-/

namespace Sys2Proof

/-- The kinds of port word that R69 reserves: 0x0 and 0x7 to 0xF. -/
def reservedKind (w : BitVec 32) : Bool :=
  w.extractLsb' 28 4 == 0x0#4 || (0x7#4).ule (w.extractLsb' 28 4)

/-- `i` is an instruction the encoding tables can write. -/
def Instr.wf : Instr → Bool
  | .config => true
  | .calBeginHigh => true
  | .calPollHigh => true
  | .calSnapHigh => true
  | .calBeginMid => true
  | .calPollMid => true
  | .calSnapMid => true
  | .calApply => true
  | .txArm => true
  | .txWait => true
  | .txComplete => true
  | .txDelay => true
  | .rxArm => true
  | .rxWait => true
  | .rxInspect => true
  | .rxDrain => true
  | .rxFlush => true
  | .halt => true
  | .reserved12 _ => true
  | .reserved14 _ => true
  | .reserved18 _ => true
  | .resetPor => true
  | .resetWdt => true
  | .edge => true
  | .isr => true
  | .portRead _ _ => true
  | .portWrite _ _ => true
  | .portStrobe _ => true
  | .portRfifo n => n != 0x00#8
  | .portWfifo n => n != 0x00#8
  | .portFdata _ => true
  | .portReserved w => reservedKind w

/-- A record the port can produce: a burst moves 1 to 255 bytes and its count is their number (20_memory.md R44, R52). -/
def PortRecord.wf : PortRecord → Bool
  | .read _ _ => true
  | .write _ _ => true
  | .strobe _ => true
  | .readFifo n bs => n != 0x00#8 && n.toNat == bs.length
  | .writeFifo bs => 1 ≤ bs.length && bs.length ≤ 255

end Sys2Proof
end

