-- ==== Sys2Proof/Decode.lean ====
section
/-!
DEFINITION. The decoder of the three formats, total and rejecting by name, and after it the encoder, both written from
the code tables of 30_encoding.md (R63 PHASE, R68 EVENT, R69 PORT).
-/

namespace Sys2Proof

/-! ### The phase codes of R63, by name -/

@[simp] abbrev Phase.config : BitVec 5 := 0x00#5
@[simp] abbrev Phase.calBeginHigh : BitVec 5 := 0x01#5
@[simp] abbrev Phase.calPollHigh : BitVec 5 := 0x02#5
@[simp] abbrev Phase.calSnapHigh : BitVec 5 := 0x03#5
@[simp] abbrev Phase.calBeginMid : BitVec 5 := 0x04#5
@[simp] abbrev Phase.calPollMid : BitVec 5 := 0x05#5
@[simp] abbrev Phase.calSnapMid : BitVec 5 := 0x06#5
@[simp] abbrev Phase.calApply : BitVec 5 := 0x07#5
@[simp] abbrev Phase.txArm : BitVec 5 := 0x08#5
@[simp] abbrev Phase.txWait : BitVec 5 := 0x09#5
@[simp] abbrev Phase.txComplete : BitVec 5 := 0x0A#5
@[simp] abbrev Phase.txDelay : BitVec 5 := 0x0B#5
@[simp] abbrev Phase.rxArm : BitVec 5 := 0x0C#5
@[simp] abbrev Phase.rxWait : BitVec 5 := 0x0D#5
@[simp] abbrev Phase.rxInspect : BitVec 5 := 0x0E#5
@[simp] abbrev Phase.rxDrain : BitVec 5 := 0x0F#5
@[simp] abbrev Phase.rxFlush : BitVec 5 := 0x10#5
@[simp] abbrev Phase.halt : BitVec 5 := 0x11#5

/-! ### Decoding -/

/-- Why a number is no code of its format. -/
inductive DecodeError where
  /-- the number does not fit the format's width (R62) -/
  | tooWide (f : Format)
  /-- a port word whose bits 27:24 are not 0 (R70) -/
  | reservedBits
  /-- a port word of kind 3 to 6 whose bits 23:8 are not 0 (R70) -/
  | addressBits
deriving DecidableEq, Repr

/-- The PHASE code map (R63, R64, R82). -/
def decodePhase (c : BitVec 5) : Instr :=
  match c.toNat with
  | 0x00 => .config
  | 0x01 => .calBeginHigh
  | 0x02 => .calPollHigh
  | 0x03 => .calSnapHigh
  | 0x04 => .calBeginMid
  | 0x05 => .calPollMid
  | 0x06 => .calSnapMid
  | 0x07 => .calApply
  | 0x08 => .txArm
  | 0x09 => .txWait
  | 0x0A => .txComplete
  | 0x0B => .txDelay
  | 0x0C => .rxArm
  | 0x0D => .rxWait
  | 0x0E => .rxInspect
  | 0x0F => .rxDrain
  | 0x10 => .rxFlush
  | 0x11 => .halt
  | _ =>
    if c.extractLsb' 1 4 = 0b1001#4 then .reserved12 (c.extractLsb' 0 1)
    else if c.extractLsb' 2 3 = 0b101#3 then .reserved14 (c.extractLsb' 0 2)
    else .reserved18 (c.extractLsb' 0 3)

/-- The EVENT code map (R68): no code is reserved. -/
def decodeEvent (e : BitVec 2) : Instr :=
  match e.toNat with
  | 0 => .resetPor
  | 1 => .resetWdt
  | 2 => .edge
  | _ => .isr

/-- The fields of a packed port word (R69): kind 31:28, zero 27:24, address 23:8, data 7:0. A word whose kind is
reserved is `reserved`; a word of a known kind with a bit set where R70 wants 0 is rejected by name. Whether a word may
stand at its place in a stream (R70) is the reader's to say (Machine/PortTrace.lean). -/
def decodePortWord (w : BitVec 32) : Except DecodeError PortWord :=
  let kind := w.extractLsb' 28 4
  let a := w.extractLsb' 8 16
  let d := w.extractLsb' 0 8
  if reservedKind w then .ok (.reserved w)
  else if w.extractLsb' 24 4 ≠ 0x0#4 then .error .reservedBits
  else if kind = 0x1#4 then .ok (.read a d)
  else if kind = 0x2#4 then .ok (.write a d)
  else if a ≠ 0x0000#16 then .error .addressBits
  else if kind = 0x3#4 then .ok (.strobe d)
  else if kind = 0x4#4 then .ok (.rfifo d)
  else if kind = 0x5#4 then .ok (.wfifo d)
  else .ok (.fdata d)

/-- The row of the opcode table a port word belongs to. -/
def PortWord.toInstr : PortWord → Instr
  | .read a d => .portRead a d
  | .write a d => .portWrite a d
  | .strobe c => .portStrobe c
  | .rfifo n => .portRfifo n
  | .wfifo n => .portWfifo n
  | .fdata b => .portFdata b
  | .reserved w => .portReserved w

/-- The PORT words of R69 as instructions. -/
def decodePort (w : BitVec 32) : Except DecodeError Instr :=
  match decodePortWord w with
  | .ok p => .ok p.toInstr
  | .error e => .error e

/-- The instruction whose code in format `f` is the number `w`. A format tells a value's length (R62). -/
def decode (f : Format) (w : Nat) : Except DecodeError Instr :=
  if 2 ^ f.width ≤ w then .error (.tooWide f)
  else match f with
    | .phase => .ok (decodePhase (BitVec.ofNat 5 w))
    | .event => .ok (decodeEvent (BitVec.ofNat 2 w))
    | .port => decodePort (BitVec.ofNat 32 w)

/-- The format of an opcode-table row of `nbits` bits: EVENT has 2, PHASE 5 (8 in whole bytes), PORT 32 (R62). The
codes of EVENT and PHASE overlap, so 8 bits are read as PHASE (log entry 13). -/
def formatOfBits (nbits : Nat) : Format :=
  if nbits ≤ 2 then .event else if nbits ≤ 8 then .phase else .port

/-- What the decoder reads from the opcode-table bits `w` (log entry 13). -/
def decodeTableWord (nbits w : Nat) : Option Instr :=
  match decode (formatOfBits nbits) w with
  | .ok i => some i
  | .error _ => none

/-! ### Encoding -/

/-- A packed port word (R69). -/
def encodePortWord : PortWord → BitVec 32
  | .read a d => 0x1#4 ++ 0x0#4 ++ a ++ d
  | .write a d => 0x2#4 ++ 0x0#4 ++ a ++ d
  | .strobe c => 0x3#4 ++ 0x0#4 ++ 0x0000#16 ++ c
  | .rfifo n => 0x4#4 ++ 0x0#4 ++ 0x0000#16 ++ n
  | .wfifo n => 0x5#4 ++ 0x0#4 ++ 0x0000#16 ++ n
  | .fdata b => 0x6#4 ++ 0x0#4 ++ 0x0000#16 ++ b
  | .reserved w => w

/-- The format and the code of an instruction (R63, R68, R69). -/
def encode : Instr → Format × Nat
  | .config => (.phase, 0x00)
  | .calBeginHigh => (.phase, 0x01)
  | .calPollHigh => (.phase, 0x02)
  | .calSnapHigh => (.phase, 0x03)
  | .calBeginMid => (.phase, 0x04)
  | .calPollMid => (.phase, 0x05)
  | .calSnapMid => (.phase, 0x06)
  | .calApply => (.phase, 0x07)
  | .txArm => (.phase, 0x08)
  | .txWait => (.phase, 0x09)
  | .txComplete => (.phase, 0x0A)
  | .txDelay => (.phase, 0x0B)
  | .rxArm => (.phase, 0x0C)
  | .rxWait => (.phase, 0x0D)
  | .rxInspect => (.phase, 0x0E)
  | .rxDrain => (.phase, 0x0F)
  | .rxFlush => (.phase, 0x10)
  | .halt => (.phase, 0x11)
  | .reserved12 low => (.phase, (0b1001#4 ++ low : BitVec 5).toNat)
  | .reserved14 low => (.phase, (0b101#3 ++ low : BitVec 5).toNat)
  | .reserved18 low => (.phase, (0b11#2 ++ low : BitVec 5).toNat)
  | .resetPor => (.event, 0)
  | .resetWdt => (.event, 1)
  | .edge => (.event, 2)
  | .isr => (.event, 3)
  | .portRead a d => (.port, (encodePortWord (.read a d)).toNat)
  | .portWrite a d => (.port, (encodePortWord (.write a d)).toNat)
  | .portStrobe c => (.port, (encodePortWord (.strobe c)).toNat)
  | .portRfifo n => (.port, (encodePortWord (.rfifo n)).toNat)
  | .portWfifo n => (.port, (encodePortWord (.wfifo n)).toNat)
  | .portFdata b => (.port, (encodePortWord (.fdata b)).toNat)
  | .portReserved w => (.port, (encodePortWord (.reserved w)).toNat)

/-- The packed words of one port record: a FIFO record is a header and one FDATA word per byte, in list order (R69). -/
def packRecord : PortRecord → List PortWord
  | .read a d => [.read a d]
  | .write a d => [.write a d]
  | .strobe c => [.strobe c]
  | .readFifo n bs => .rfifo n :: bs.map .fdata
  | .writeFifo bs => .wfifo (BitVec.ofNat 8 bs.length) :: bs.map .fdata

/-- A list of port records as a trace file's words (R69). -/
def packTrace (rs : List PortRecord) : List (BitVec 32) :=
  rs.flatMap fun r => (packRecord r).map encodePortWord

end Sys2Proof
end

