-- ==== Sys2Proof/Machine/State.lean ====
section
/-!
DEFINITION. The state of TRXSEQ as plain data (10_state.md), the records of TRACE (20_memory.md R44, 60_exceptions.md
R157), the reasons a step can stop, and the state after reset (70_reset_and_hazards.md R160).
-/

namespace Sys2Proof.Machine

/-- TransceiverState (10_state.md R20), in the document's order. -/
inductive TransceiverState where
  | idle
  | calibrating
  | transmitArmed
  | transmitComplete
  | receiveArmed
  | receiveComplete
  | fifoError
deriving DecidableEq, Repr

/-- A CalibrationResult triple (10_state.md R31). -/
structure CalResult where
  vco2 : Byte
  vco4 : Byte
  chp : Byte
deriving DecidableEq, Repr

/-- The two calibration runs (41_calibration.md R93). -/
inductive CalRun where
  | high
  | mid
deriving DecidableEq, Repr

/-- The cause of a reset (70_reset_and_hazards.md R160). -/
inductive ResetCause where
  | powerOn
  | watchdog
deriving DecidableEq, Repr

/-- FifoErrorCode (30_encoding.md R66). -/
inductive FifoErrorCode where
  | none
  | statusOverflow
deriving DecidableEq, Repr

/-- The structured diagnostic records (60_exceptions.md R157). -/
inductive Diag where
  | config (mode : Mode) (entries : Nat)
  | rxPacket (length : Byte) (sequence : SeqNum) (payload : List Byte)
  | fifoError (code : FifoErrorCode)
  | framingError (length : Option Byte) (count : Nat)
  | calTimeout (run : CalRun) (polls : Nat)
deriving DecidableEq, Repr

/-- The records of TRACE (20_memory.md R44). -/
inductive Record where
  | port (r : PortRecord)
  | diag (d : Diag)
  | kick
  | edge
  | reset (cause : ResetCause)
deriving DecidableEq, Repr

/-- The working registers that hold no value after reset (10_state.md R35). -/
inductive WorkingReg where
  | calBase
  | calH
  | calM
  | polls
  | rxn
deriving DecidableEq, Repr

/-- A model fault's reason, as MFAULT records it (10_state.md R38, 60_exceptions.md R146). -/
inductive ModelFault where
  /-- `Unwritten(name)`: a rule read a working register that holds no value (R35). -/
  | unwritten (name : WorkingReg)
  /-- `ReservedPhase(code)`: a reserved code was dispatched (R90). -/
  | reservedPhase (code : BitVec 5)
deriving DecidableEq, Repr

/-- A burst of the port-word decoder whose FDATA words are not all read (30_encoding.md R70). -/
structure Burst where
  /-- the index of the burst's header word -/
  header : Nat
  /-- whether the header is WFIFO (else RFIFO) -/
  isWrite : Bool
  /-- the header's count -/
  count : Byte
  /-- the bytes read so far, in order -/
  bytes : List Byte
deriving DecidableEq, Repr

/-- The total decoder of port words (R70), the model's own agent (log entry 10). -/
structure PortReader where
  /-- the index of the next word -/
  index : Nat
  burst : Option Burst
  /-- the records read so far, in order -/
  records : List PortRecord
  /-- the index the decoder reported invalid; nothing after it is read -/
  invalid : Option Nat
deriving DecidableEq, Repr

/-- A turn of a run (40_sequencer.md R78, R79): the sequencer's, an event's (its 2-bit code, 30_encoding.md R68), or
the trace reader's next port word (log entry 10). -/
inductive Turn where
  | sequencer
  | event (e : BitVec 2)
  | word (w : BitVec 32)
deriving DecidableEq, Repr

/-- The state of TRXSEQ (10_state.md section 1), its configuration, and the model's own fields. An Option register that is
`none` is "unwritten", the value the spec gives it at reset (R35; log entry 9). -/
structure State where
  /-- the parameters of 00_scope.md R7; no rule writes them (log entry 1) -/
  cfg : Config
  /-- PH, the program counter (R18) -/
  ph : BitVec 5
  /-- EVT (R23) -/
  evt : Bool
  /-- IRQ_PEND (R26) -/
  irqPend : Bool
  /-- SEQ (R29) -/
  seq : SeqNum
  /-- HB (R27) -/
  hb : Bool
  /-- FATAL (R28) -/
  fatal : Bool
  /-- CAL_BASE (R31) -/
  calBase : Option Byte
  /-- CAL_H (R31) -/
  calH : Option CalResult
  /-- CAL_M (R31) -/
  calM : Option CalResult
  /-- POLLS (R32) -/
  polls : Option Nat
  /-- RXN (R33) -/
  rxn : Option Byte
  /-- MFAULT (R38) -/
  mfault : Option ModelFault
  /-- TRACE (R36), oldest record first -/
  trace : List Record
  /-- model's own: the coming turns, where the environment has listed them (log entry 5) -/
  script : List Turn
  /-- model's own: the number of turns taken (log entry 5) -/
  turn : Nat
  /-- model's own: the radio's coming answers, where they are listed (log entry 4) -/
  answers : List Byte
  /-- model's own: the number of answers drawn (log entry 4) -/
  draws : Nat
  /-- model's own: the port-word decoder (log entry 10) -/
  reader : PortReader
deriving DecidableEq, Repr

/-- The reasons a step stops the machine. -/
inductive Fault where
  /-- Raised by `step` when MFAULT holds `r`: "no agent steps again" (40_sequencer.md R90, 10_state.md R38). Safe: the
  machine stops where the spec says every agent has stopped (log entry 7). -/
  | stopped (r : ModelFault)
deriving DecidableEq, Repr

/-- The reasons the model has no meaning. -/
inductive Refusal where
  /-- Raised by an arm of `exec` whose instruction has no meaning yet. Safe. -/
  | notModelled (mnemonic : String)
  /-- Raised by `runLine` for a scenario line that asks for a step which is not enabled, or names a phase PH does not
  hold (30_encoding.md R74). Safe: such a line is no scenario (log entry 20). -/
  | scenarioNotEnabled
  /-- Raised by `runLine` for a line whose answers are not those of the reads its step makes (R74). Safe (log entry 20). -/
  | scenarioAnswers
deriving DecidableEq, Repr

/-- The reader before any word. -/
def PortReader.start : PortReader :=
  { index := 0, burst := none, records := [], invalid := none }

/-- The machine of configuration `c` right after reset, at model start: the values of 70_reset_and_hazards.md R160, an
empty TRACE (R161), MFAULT none (10_state.md R38). -/
def State.resetOf (c : Config) : State :=
  { cfg := c
    ph := Phase.config
    evt := false
    irqPend := false
    seq := 0x0001#16
    hb := false
    fatal := false
    calBase := none
    calH := none
    calM := none
    polls := none
    rxn := none
    mfault := none
    trace := []
    script := []
    turn := 0
    answers := []
    draws := 0
    reader := .start }

/-- The machine right after reset, in a configuration that is any admitted one (log entry 2). -/
def State.reset : State :=
  .resetOf Config.free

/-- The parameters of the machine. -/
abbrev State.par (s : State) : Params :=
  s.cfg.params

end Sys2Proof.Machine
end

