-- ==== Sys2Proof/Machine/Ops.lean ====
section
/-!
DEFINITION. The named operations over TRXSEQ's state: draws, the port and output primitives (00_scope.md R12, R13), the
phase register, the event latch, interrupt entry, the fatal condition, the model faults, reset, and the choice and fetch of
the next turn (40_sequencer.md R78 to R82).
-/

namespace Sys2Proof.Machine

/-! ### Draws (40_sequencer.md R83; log entry 4) -/

/-- The radio's `k`-th answer from now: the listed one, or a free value. -/
def State.answerAt (s : State) (k : Nat) : Byte :=
  (s.answers[k]?).getD (Config.radioByte (s.draws + k))

/-- `k` answers have been drawn. -/
def State.consume (s : State) (k : Nat) : State :=
  { s with answers := s.answers.drop k, draws := s.draws + k }

/-! ### TRACE and the primitives -/

/-- Append one record to TRACE (20_memory.md R44). -/
def State.record (s : State) (r : Record) : State :=
  { s with trace := s.trace ++ [r] }

/-- `PortRead(a)`: the answer, and the state in which it has been drawn and recorded (R12, R83). -/
def portRead (a : Addr) (s : State) : Byte × State :=
  (s.answerAt 0, (s.consume 1).record (.port (.read a (s.answerAt 0))))

/-- `PortWrite(a, d)` (R12). -/
def portWrite (a : Addr) (d : Byte) (s : State) : State :=
  s.record (.port (.write a d))

/-- `PortStrobe(c)` (R12). -/
def portStrobe (c : Byte) (s : State) : State :=
  s.record (.port (.strobe c))

/-- `PortReadFifo(n)`: `n` drained bytes, each a draw (R12, R83). -/
def portReadFifo (n : Byte) (s : State) : List Byte × State :=
  let bs := (List.range n.toNat).map s.answerAt
  (bs, (s.consume n.toNat).record (.port (.readFifo n bs)))

/-- `PortWriteFifo(bs)` (R12). -/
def portWriteFifo (bs : List Byte) (s : State) : State :=
  s.record (.port (.writeFifo bs))

/-- `emit Diag(...)` (00_scope.md R13, 60_exceptions.md R157). -/
def emitDiag (d : Diag) (s : State) : State :=
  s.record (.diag d)

/-- `kick()`, the watchdog checkpoint (00_scope.md R13, 46_watchdog_loop.md R135). -/
def kick (s : State) : State :=
  s.record .kick

/-- `delay(INTER_PACKET_DELAY)`: no effect on state (00_scope.md R13, 44_transmit.md R123). -/
def interPacketDelay (s : State) : State :=
  s

/-- `PH <- c` (00_scope.md R11, 10_state.md R18). -/
def State.toPhase (s : State) (c : BitVec 5) : State :=
  { s with ph := c }

/-- `EVT <- 0`, the sequencer's clear (10_state.md R23, 20_memory.md R59). -/
def clearEvt (s : State) : State :=
  { s with evt := false }

/-! ### Interrupts, the fatal condition, model faults -/

/-- An edge on the interrupt line (43_handoff.md R112): one record, and the pending bit. -/
def signalEdge (s : State) : State :=
  { s.record .edge with irqPend := true }

/-- Taking the interrupt (43_handoff.md R114, 60_exceptions.md R149): the latch is set and the pending bit cleared; PH and
every working register are untouched, nothing is saved, so the sequencer resumes at the same phase (R150: there is no
return instruction). -/
def takeInterrupt (s : State) : State :=
  { s with evt := true, irqPend := false }

/-- `raise CalibrationTimeout` (41_calibration.md R93, 60_exceptions.md R143): FATAL, the diagnostic record, HALT. -/
def raiseCalTimeout (run : CalRun) (polls : Nat) (s : State) : State :=
  (emitDiag (.calTimeout run polls) { s with fatal := true }).toPhase Phase.halt

/-- `fault <reason>` (00_scope.md R14): MFAULT records the reason; nothing else of the step happens after it (log entry 8). -/
def raiseModelFault (r : ModelFault) (s : State) : State :=
  { s with mfault := some r }

/-! ### Reset (70_reset_and_hazards.md R160) -/

/-- The reset step: the record, then every element at its reset value; TRACE, MFAULT and the parameters stay. -/
def applyReset (cause : ResetCause) (s : State) : State :=
  { s.record (.reset cause) with
    ph := Phase.config
    evt := false
    irqPend := false
    seq := 0x0001#16
    hb := false
    fatal := false
    calBase := none
    calH := none
    calM := none
    polls := none
    rxn := none }

/-! ### Turns (40_sequencer.md R78 to R82; log entry 5) -/

/-- The next turn: the first listed one, or the environment's free choice. -/
def State.pick (s : State) : Turn :=
  match s.script with
  | t :: _ => t
  | [] =>
    match Config.environment s.turn with
    | none => .sequencer
    | some e => .event e

/-- The state in which the next turn has been taken from the list and counted. -/
def State.endTurn (s : State) : State :=
  { s with script := s.script.tail, turn := s.turn + 1 }

/-- The instruction of a turn: the phase in PH (R82), the event of the code, or the row of the port word; none for a port
word that no row of the table admits (30_encoding.md R70). -/
def State.fetch (s : State) : Turn → Option Instr
  | .sequencer => some (decodePhase s.ph)
  | .event e => some (decodeEvent e)
  | .word w => (decodePort w).toOption

/-- Whether the agent of a turn may step, MFAULT being none: a pending interrupt pre-empts the sequencer (R81,
43_handoff.md R115), ISR needs one (R113), an edge, a reset and the trace reader always may (R112, R160). The holds of HALT
and of the two waits (R81) are in the meanings of those phases. -/
def State.mayStep (s : State) : Turn → Bool
  | .sequencer => !s.irqPend
  | .event e => if e = 3#2 then s.irqPend else true
  | .word _ => true

/-- The state in which the table's bits `w` are what the next step runs (log entry 14): a PHASE code goes to PH and the
sequencer has the turn; an EVENT code or a PORT word is the next turn. The pending bit is set as that turn needs it. -/
def State.placeWord (s : State) (nbits w : Nat) : State :=
  match formatOfBits nbits with
  | .phase => { s with ph := BitVec.ofNat 5 w, irqPend := false, script := .sequencer :: s.script }
  | .event =>
    { s with
      irqPend := s.irqPend || BitVec.ofNat 2 w == 3#2
      script := .event (BitVec.ofNat 2 w) :: s.script }
  | .port => { s with script := .word (BitVec.ofNat 32 w) :: s.script }

end Sys2Proof.Machine
end

