-- ==== Sys2Proof/Machine/Operands.lean ====
section
/-!
DEFINITION. What a phase reads: it has no operand fields (30_encoding.md R63, R73), so its operands are parameters and
working registers, and a working register may be unwritten (10_state.md R35).
-/

namespace Sys2Proof.Machine

/-- Read a working register: go on with its value, or record `fault Unwritten(name)` (00_scope.md R11, 10_state.md R35). -/
def readWorking {α : Type} (name : WorkingReg) (v : Option α) (s : State) (go : α → State) : State :=
  match v with
  | some x => go x
  | none => raiseModelFault (.unwritten name) s

/-- `PAYLOAD(q)` (00_scope.md R7). -/
def payloadOf (p : Params) (q : SeqNum) : List Byte :=
  match p.payload.listed.find? (fun e => e.1 == q) with
  | some e => e.2
  | none => p.payload.otherwise

end Sys2Proof.Machine
end

