-- ==== Sys2Proof/Machine/Flags.lean ====
section
/-!
DEFINITION. The views of the state: ST (10_state.md R21), STATUS (R37), which agents have an enabled step (40_sequencer.md
R81, 43_handoff.md R113), and the codes the spec gives states, diagnostics and error conditions.
-/

namespace Sys2Proof.Machine

/-- ST as the function of PH of R21; none for a reserved code. -/
def stOfPhase (c : BitVec 5) : Option TransceiverState :=
  match c.toNat with
  | 0x00 => some .idle
  | 0x01 | 0x02 | 0x03 | 0x04 | 0x05 | 0x06 | 0x07 => some .calibrating
  | 0x08 | 0x09 => some .transmitArmed
  | 0x0A | 0x0B => some .transmitComplete
  | 0x0C | 0x0D => some .receiveArmed
  | 0x0E | 0x0F => some .receiveComplete
  | 0x10 => some .fifoError
  | 0x11 => some .idle
  | _ => none

/-- ST (10_state.md R20, R21). -/
def State.st (s : State) : Option TransceiverState :=
  stOfPhase s.ph

/-- The 3-bit state codes (30_encoding.md R65). -/
def TransceiverState.code : TransceiverState → BitVec 3
  | .idle => 0
  | .calibrating => 1
  | .transmitArmed => 2
  | .transmitComplete => 3
  | .receiveArmed => 4
  | .receiveComplete => 5
  | .fifoError => 6

/-- MODE as STATUS shows it (10_state.md R37). -/
def modeBit : Mode → BitVec 1
  | .tx => 0
  | .rx => 1

/-- STATUS (10_state.md R37), bit 15 first; none where PH is reserved and so ST has no value (log entry 16). -/
def State.status (s : State) : Option (BitVec 16) :=
  s.st.map fun st =>
    0#3 ++ modeBit s.par.mode ++ BitVec.ofBool s.fatal ++ BitVec.ofBool s.hb ++ BitVec.ofBool s.irqPend
      ++ BitVec.ofBool s.evt ++ st.code ++ s.ph

/-- The sequencer has an enabled step (40_sequencer.md R81). -/
def State.sequencerEnabled (s : State) : Bool :=
  s.mfault.isNone && !s.irqPend && s.ph != Phase.halt
    && !((s.ph == Phase.txWait || s.ph == Phase.rxWait) && !s.evt)

/-- The interrupt agent has an enabled step (43_handoff.md R113). -/
def State.interruptEnabled (s : State) : Bool :=
  s.irqPend && s.mfault.isNone

/-- The kind code of a diagnostic record (60_exceptions.md R157). -/
def Diag.kindCode : Diag → Nat
  | .config _ _ => 0
  | .rxPacket _ _ _ => 1
  | .fifoError _ => 2
  | .framingError _ _ => 3
  | .calTimeout _ _ => 4

/-- The error code of R142 that a record of TRACE reports: CalibrationTimeout 1, RxFifoError 2, FramingError 3,
WatchdogExpiry 4; none for a record that reports no error. DESIGN CHOICE (log entry 24): R142 says the codes appear in
diagnostic records and STATUS, and neither R157's records nor R37's STATUS has a field for one; so the code is this view of
a record, and WatchdogExpiry's is given to the record Reset(Watchdog), which is no diagnostic record. -/
def Record.errorCode : Record → Option Nat
  | .port _ => none
  | .diag (.config _ _) => none
  | .diag (.rxPacket _ _ _) => none
  | .diag (.fifoError _) => some 2
  | .diag (.framingError _ _) => some 3
  | .diag (.calTimeout _ _) => some 1
  | .kick => none
  | .edge => none
  | .reset .powerOn => none
  | .reset .watchdog => some 4

end Sys2Proof.Machine
end

