-- ==== Sys2Proof/Machine/Sequencer.lean ====
section
/-!
DEFINITION. The phases of 40_sequencer.md: CONFIG (R87), HALT (R89) and the reserved codes (R90).
-/

namespace Sys2Proof.Machine

/-- Write the register profile in list order (R87). -/
def writeProfile (l : List (Addr × Byte)) (s : State) : State :=
  l.foldl (fun s e => portWrite e.1 e.2 s) s

/-- CONFIG (R87): the register configuration, its diagnostic, then calibration. -/
def execConfig (s : State) : Host.Outcome State Fault Refusal :=
  let p := s.par
  .next ((emitDiag (.config p.mode p.regProfile.length) (writeProfile p.regProfile s)).toPhase Phase.calBeginHigh)

/-- A phase that has no enabled step: the sequencer holds, nothing changes (40_sequencer.md R81, log entry 6). -/
def hold (s : State) : State :=
  s

/-- HALT (R89): the safe state; the sequencer holds until a reset. -/
def execHalt (s : State) : Host.Outcome State Fault Refusal :=
  .next (hold s)

/-- RESERVED, codes 0x12 and 0x13 (R90): `fault ReservedPhase(code)`. -/
def execReserved12 (low : BitVec 1) (s : State) : Host.Outcome State Fault Refusal :=
  .next (raiseModelFault (.reservedPhase (0b1001#4 ++ low)) s)

/-- RESERVED, codes 0x14 to 0x17 (R90). -/
def execReserved14 (low : BitVec 2) (s : State) : Host.Outcome State Fault Refusal :=
  .next (raiseModelFault (.reservedPhase (0b101#3 ++ low)) s)

/-- RESERVED, codes 0x18 to 0x1F (R90). -/
def execReserved18 (low : BitVec 3) (s : State) : Host.Outcome State Fault Refusal :=
  .next (raiseModelFault (.reservedPhase (0b11#2 ++ low)) s)

end Sys2Proof.Machine
end

