-- ==== Sys2Proof/Machine/Calibration.lean ====
section
/-!
DEFINITION. The Calibration Engine (41_calibration.md): the selection (R94), the shared poll (R93) and the seven phases
R95 to R101.
-/

namespace Sys2Proof.Machine

/-- `cal_select(h, m)` (R94): the whole high triple where its vco2 is strictly greater (unsigned), else the mid one. -/
def calSelect (h m : CalResult) : CalResult :=
  if m.vco2.toNat < h.vco2.toNat then h else m

/-- `own(r)` (R93). -/
def ownPhase : CalRun → BitVec 5
  | .high => Phase.calPollHigh
  | .mid => Phase.calPollMid

/-- `snap(r)` (R93). -/
def snapPhase : CalRun → BitVec 5
  | .high => Phase.calSnapHigh
  | .mid => Phase.calSnapMid

/-- One poll step of run `r` (R93). A matching read succeeds before the bound is tested (60_exceptions.md R151(4));
the bound is tested by equality (log entry 21). -/
def calPoll (r : CalRun) (s : State) : State :=
  let rd := portRead s.par.aMarcState s
  readWorking .polls rd.2.polls rd.2 fun n =>
    let counted := { rd.2 with polls := some (n + 1) }
    if rd.1 = s.par.marcSettled then counted.toPhase (snapPhase r)
    else if s.par.calPollLimit = some (n + 1) then raiseCalTimeout r (n + 1) counted
    else counted.toPhase (ownPhase r)

/-- Read the three result registers in the listed order (R97, R100). -/
def readTriple (s : State) : CalResult × State :=
  let v2 := portRead s.par.aFsVco2 s
  let v4 := portRead s.par.aFsVco4 v2.2
  let cp := portRead s.par.aFsChp v4.2
  ({ vco2 := v2.1, vco4 := v4.1, chp := cp.1 }, cp.2)

/-- CAL_BEGIN_HIGH (R95). -/
def execCalBeginHigh (s : State) : Host.Outcome State Fault Refusal :=
  let p := s.par
  let rd := portRead p.aCalCtrl (portWrite p.aVcoCap 0x00 s)
  let started := portStrobe p.cmdScal (portWrite p.aCalCtrl (rd.1 + p.vcdacStartOffset) rd.2)
  .next ({ started with calBase := some rd.1, polls := some 0 }.toPhase Phase.calPollHigh)

/-- CAL_POLL_HIGH (R96). -/
def execCalPollHigh (s : State) : Host.Outcome State Fault Refusal :=
  .next (calPoll .high s)

/-- CAL_SNAP_HIGH (R97). -/
def execCalSnapHigh (s : State) : Host.Outcome State Fault Refusal :=
  let rd := readTriple s
  .next ({ rd.2 with calH := some rd.1 }.toPhase Phase.calBeginMid)

/-- CAL_BEGIN_MID (R98): the saved value is written, none is read again. -/
def execCalBeginMid (s : State) : Host.Outcome State Fault Refusal :=
  let p := s.par
  let zeroed := portWrite p.aVcoCap 0x00 s
  .next (readWorking .calBase zeroed.calBase zeroed fun b =>
    { portStrobe p.cmdScal (portWrite p.aCalCtrl b zeroed) with polls := some 0 }.toPhase Phase.calPollMid)

/-- CAL_POLL_MID (R99). -/
def execCalPollMid (s : State) : Host.Outcome State Fault Refusal :=
  .next (calPoll .mid s)

/-- CAL_SNAP_MID (R100). -/
def execCalSnapMid (s : State) : Host.Outcome State Fault Refusal :=
  let rd := readTriple s
  .next ({ rd.2 with calM := some rd.1 }.toPhase Phase.calApply)

/-- The first arm phase of a mode (R101). -/
def armPhase : Mode → BitVec 5
  | .tx => Phase.txArm
  | .rx => Phase.rxArm

/-- Write the winning triple in the listed order (R101). -/
def writeTriple (w : CalResult) (s : State) : State :=
  portWrite s.par.aFsChp w.chp (portWrite s.par.aFsVco4 w.vco4 (portWrite s.par.aFsVco2 w.vco2 s))

/-- CAL_APPLY (R101). CAL_H is read before CAL_M (log entry 22). -/
def execCalApply (s : State) : Host.Outcome State Fault Refusal :=
  .next (readWorking .calH s.calH s fun h =>
    readWorking .calM s.calM s fun m =>
      (kick (writeTriple (calSelect h m) s)).toPhase (armPhase s.par.mode))

end Sys2Proof.Machine
end

