-- ==== Sys2Proof/Machine/Handoff.lean ====
section
/-!
DEFINITION. The events: EDGE and ISR (43_handoff.md R112, R114), RESET_POR (70_reset_and_hazards.md R160) and RESET_WDT
(46_watchdog_loop.md R138).
-/

namespace Sys2Proof.Machine

/-- RESET_POR (R160): the reset step with cause PowerOn. -/
def execResetPor (s : State) : Host.Outcome State Fault Refusal :=
  .next (applyReset .powerOn s)

/-- RESET_WDT (R138): the reset step with cause Watchdog. -/
def execResetWdt (s : State) : Host.Outcome State Fault Refusal :=
  .next (applyReset .watchdog s)

/-- EDGE (R112). -/
def execEdge (s : State) : Host.Outcome State Fault Refusal :=
  .next (signalEdge s)

/-- ISR (R114): the interrupt handler. When it has an enabled step is `State.mayStep`'s to say (R113). -/
def execIsr (s : State) : Host.Outcome State Fault Refusal :=
  .next (takeInterrupt s)

end Sys2Proof.Machine
end

