-- ==== Sys2Proof/Machine/PortTrace.lean ====
section
/-!
DEFINITION. The PORT rows: the total decoder of packed port words (30_encoding.md R69, R70). It reads a trace file's words
one by one, rebuilds the records, and reports the index of the first invalid word; it touches nothing else (log entry 10).
-/

namespace Sys2Proof.Machine

/-- Report the word of index `k` invalid; the decoder "does not guess" (R70). -/
def PortReader.reject (r : PortReader) (k : Nat) : PortReader :=
  { r with invalid := some k }

/-- A word that is no FDATA word: inside a burst it leaves the header short, and the header is reported (log entry 11);
else it is taken. -/
def PortReader.outsideBurst (r : PortReader) (take : PortReader) : PortReader :=
  match r.burst with
  | some b => r.reject b.header
  | none => take

/-- A whole record in one word. -/
def PortReader.single (r : PortReader) (p : PortRecord) : PortReader :=
  r.outsideBurst { r with index := r.index + 1, records := r.records ++ [p] }

/-- A burst header; an empty burst is invalid (R70; log entry 12). -/
def PortReader.header (r : PortReader) (isWrite : Bool) (n : Byte) : PortReader :=
  r.outsideBurst
    (if n = 0x00#8 then r.reject r.index
     else
      { r with
        index := r.index + 1
        burst := some { header := r.index, isWrite := isWrite, count := n, bytes := [] } })

/-- The record of a complete burst (R69). -/
def Burst.record (b : Burst) : PortRecord :=
  if b.isWrite then .writeFifo b.bytes else .readFifo b.count b.bytes

/-- An FDATA word: the next byte of an unfinished burst, invalid without one (R70). -/
def PortReader.data (r : PortReader) (x : Byte) : PortReader :=
  match r.burst with
  | none => r.reject r.index
  | some b =>
    let b' := { b with bytes := b.bytes ++ [x] }
    if b'.bytes.length = b.count.toNat then
      { r with index := r.index + 1, burst := none, records := r.records ++ [b'.record] }
    else { r with index := r.index + 1, burst := some b' }

/-- The reader takes one word; after an invalid word it reads nothing more. -/
def PortReader.feed (r : PortReader) (p : PortWord) : PortReader :=
  if r.invalid.isSome then r
  else match p with
    | .read a d => r.single (.read a d)
    | .write a d => r.single (.write a d)
    | .strobe c => r.single (.strobe c)
    | .rfifo n => r.header false n
    | .wfifo n => r.header true n
    | .fdata x => r.data x
    | .reserved _ => r.outsideBurst (r.reject r.index)

/-- A word of a known kind with a forbidden bit set (R70): an FDATA word is itself invalid, any other as `outsideBurst`. -/
def PortReader.malformed (r : PortReader) (w : BitVec 32) : PortReader :=
  if r.invalid.isSome then r
  else if w.extractLsb' 28 4 = 0x6#4 then r.reject r.index
  else r.outsideBurst (r.reject r.index)

/-- The reader takes one 32-bit word of a trace file. -/
def PortReader.feedWord (r : PortReader) (w : BitVec 32) : PortReader :=
  match decodePortWord w with
  | .ok p => r.feed p
  | .error _ => r.malformed w

/-- The result at the end of a trace file: the records, or the index of the invalid word; a burst that is still unfinished
has a short header (R70). -/
def PortReader.finish (r : PortReader) : Except Nat (List PortRecord) :=
  match r.invalid with
  | some k => .error k
  | none =>
    match r.burst with
    | some b => .error b.header
    | none => .ok r.records

/-- The decoder of a whole list of port words (R70): the records, or the index of the invalid word. -/
def decodePortTrace (ws : List (BitVec 32)) : Except Nat (List PortRecord) :=
  (ws.foldl PortReader.feedWord .start).finish

/-- The reader of the state takes a port word. -/
def State.readPortWord (s : State) (p : PortWord) : State :=
  { s with reader := s.reader.feed p }

/-- The reader of the state takes a word that no row of the table admits. -/
def State.readMalformed (s : State) (w : BitVec 32) : State :=
  { s with reader := s.reader.malformed w }

/-- A turn that holds no instruction of the table: only a malformed port word is one, and the reader reports it. -/
def State.readUnfetched (s : State) : Turn → State
  | .sequencer => s
  | .event _ => s
  | .word w => s.readMalformed w

/-- PORT_READ (R69). -/
def execPortRead (a : Addr) (d : Byte) (s : State) : Host.Outcome State Fault Refusal :=
  .next (s.readPortWord (.read a d))

/-- PORT_WRITE (R69). -/
def execPortWrite (a : Addr) (d : Byte) (s : State) : Host.Outcome State Fault Refusal :=
  .next (s.readPortWord (.write a d))

/-- PORT_STROBE (R69). -/
def execPortStrobe (c : Byte) (s : State) : Host.Outcome State Fault Refusal :=
  .next (s.readPortWord (.strobe c))

/-- PORT_RFIFO (R69, R70). -/
def execPortRfifo (n : Byte) (s : State) : Host.Outcome State Fault Refusal :=
  .next (s.readPortWord (.rfifo n))

/-- PORT_WFIFO (R69, R70). -/
def execPortWfifo (n : Byte) (s : State) : Host.Outcome State Fault Refusal :=
  .next (s.readPortWord (.wfifo n))

/-- PORT_FDATA (R69, R70). -/
def execPortFdata (x : Byte) (s : State) : Host.Outcome State Fault Refusal :=
  .next (s.readPortWord (.fdata x))

/-- PORT_RESERVED (R70): the word is invalid and its index is reported. -/
def execPortReserved (w : BitVec 32) (s : State) : Host.Outcome State Fault Refusal :=
  .next (s.readPortWord (.reserved w))

end Sys2Proof.Machine
end

