-- ==== Sys2Proof/Machine/Codec.lean ====
section
/-!
DEFINITION. The Packet Codec (42_packet_codec.md): three pure functions, the framer, the classifier and the deframer of the
WIRE format (30_encoding.md R71, R72).
-/

namespace Sys2Proof.Machine

/-- `build_tx_packet(s, pl)` (R106): length, sequence high byte, sequence low byte, payload. -/
def buildTxPacket (q : SeqNum) (pl : List Byte) : List Byte :=
  [BitVec.ofNat 8 (3 + pl.length), q.extractLsb' 8 8, q.extractLsb' 0 8] ++ pl

/-- The verdicts of `classify_rx` (R107). -/
inductive Verdict where
  | empty
  | error
  | ready (n : Byte)
deriving DecidableEq, Repr

/-- `classify_rx(s, n)` (R107, in the order 90_conflicts.md C1 fixes). -/
def classifyRx (fifoErrCode : BitVec 5) (s n : Byte) : Verdict :=
  if n = 0x00#8 then .empty
  else if s.extractLsb' 0 5 = fifoErrCode then .error
  else .ready n

/-- The FifoErrorCode of a verdict (30_encoding.md R66). -/
def fifoErrorOf : Verdict → FifoErrorCode
  | .empty => .none
  | .error => .statusOverflow
  | .ready _ => .none

/-- The results of `parse_rx_packet` (R108). -/
inductive Parsed where
  | packet (length : Byte) (sequence : SeqNum) (payload : List Byte)
  | framingError (length : Byte) (count : Nat)
deriving DecidableEq, Repr

/-- `parse_rx_packet(bs)` (R108). The length byte of no bytes is a free value (log entry 15). -/
def parseRxPacket (rxBufCap : Nat) (bs : List Byte) : Parsed :=
  let len := bs.headD Config.absentLengthByte
  if len.toNat < 3 ∨ rxBufCap < len.toNat ∨ bs.length < len.toNat then .framingError len bs.length
  else .packet len (bs.getD 1 0 ++ bs.getD 2 0) ((bs.drop 3).take (len.toNat - 3))

/-- The diagnostic that reports a parse (45_receive.md R130). -/
def reportOf : Parsed → Diag
  | .packet len q pl => .rxPacket len q pl
  | .framingError len c => .framingError (some len) c

end Sys2Proof.Machine
end

