-- ==== Sys2Proof/Machine/Transmit.lean ====
section
/-!
DEFINITION. The transmit service (44_transmit.md): TX_ARM (R120), TX_WAIT (R121), TX_COMPLETE (R122), TX_DELAY (R123).
-/

namespace Sys2Proof.Machine

/-- TX_ARM (R120): build the packet, write it to the TX FIFO, strobe TX. -/
def execTxArm (s : State) : Host.Outcome State Fault Refusal :=
  let p := s.par
  .next ((portStrobe p.cmdStx (portWriteFifo (buildTxPacket s.seq (payloadOf p s.seq)) s)).toPhase Phase.txWait)

/-- The exit condition "handoff flag observed set": hold until EVT = 1, then go on (R121, R128). -/
def awaitEvent (after : BitVec 5) (s : State) : State :=
  if s.evt then s.toPhase after else hold s

/-- TX_WAIT (R121). -/
def execTxWait (s : State) : Host.Outcome State Fault Refusal :=
  .next (awaitEvent Phase.txComplete s)

/-- TX_COMPLETE (R122): clear the flag, toggle the heartbeat, increment the sequence. -/
def execTxComplete (s : State) : Host.Outcome State Fault Refusal :=
  .next ({ clearEvt s with hb := !s.hb, seq := s.seq + 1 }.toPhase Phase.txDelay)

/-- TX_DELAY (R123): the busy-wait, then the checkpoint. -/
def execTxDelay (s : State) : Host.Outcome State Fault Refusal :=
  .next ((kick (interPacketDelay s)).toPhase Phase.txArm)

end Sys2Proof.Machine
end

