-- ==== Sys2Proof/Machine/Receive.lean ====
section
/-!
DEFINITION. The receive service (45_receive.md): RX_ARM (R127), RX_WAIT (R128), RX_INSPECT (R129), RX_DRAIN (R130),
RX_FLUSH (R131).
-/

namespace Sys2Proof.Machine

/-- The end of every receive service: clear the latch after the action, the checkpoint, re-arm (R129, R130, R131). -/
def endService (s : State) : State :=
  (kick (clearEvt s)).toPhase Phase.rxArm

/-- RX_ARM (R127). -/
def execRxArm (s : State) : Host.Outcome State Fault Refusal :=
  .next ((portStrobe s.par.cmdSrx s).toPhase Phase.rxWait)

/-- RX_WAIT (R128). -/
def execRxWait (s : State) : Host.Outcome State Fault Refusal :=
  .next (awaitEvent Phase.rxInspect s)

/-- What a verdict of the inspection does (R129). -/
def afterVerdict (v : Verdict) (s : State) : State :=
  match v with
  | .empty => endService s
  | .error => s.toPhase Phase.rxFlush
  | .ready n => { s with rxn := some n }.toPhase Phase.rxDrain

/-- RX_INSPECT (R129): the machine-state register is read only where the count is not 0. -/
def execRxInspect (s : State) : Host.Outcome State Fault Refusal :=
  let n := portRead s.par.aNumRxBytes s
  .next (if n.1 = 0x00#8 then afterVerdict .empty n.2
    else
      let m := portRead s.par.aMarcState n.2
      afterVerdict (classifyRx s.par.fifoErrCode m.1 n.1) m.2)

/-- The `Ready` row's drain, parse and report (R130); a count above RX_BUF_CAP is flushed and reported. -/
def drainAndReport (n : Byte) (s : State) : State :=
  if s.par.rxBufCap < n.toNat then
    emitDiag (.framingError none n.toNat) (portStrobe s.par.cmdSfrx s)
  else
    let bs := portReadFifo n s
    emitDiag (reportOf (parseRxPacket s.par.rxBufCap bs.1)) bs.2

/-- RX_DRAIN (R130). -/
def execRxDrain (s : State) : Host.Outcome State Fault Refusal :=
  .next (readWorking .rxn s.rxn s fun n => endService (drainAndReport n s))

/-- RX_FLUSH (R131). -/
def execRxFlush (s : State) : Host.Outcome State Fault Refusal :=
  .next (endService (emitDiag (.fifoError .statusOverflow) (portStrobe s.par.cmdSfrx s)))

end Sys2Proof.Machine
end

