-- ==== Sys2Proof/Machine/Dispatch.lean ====
section
/-!
DEFINITION. The dispatch of 40_sequencer.md R82 over the whole opcode table: one arm per constructor, one meaning per arm.
-/

namespace Sys2Proof.Machine

def exec (i : Instr) (s : State) : Host.Outcome State Fault Refusal :=
  match i with
  | .config => Sys2Proof.Machine.execConfig s
  | .calBeginHigh => Sys2Proof.Machine.execCalBeginHigh s
  | .calPollHigh => Sys2Proof.Machine.execCalPollHigh s
  | .calSnapHigh => Sys2Proof.Machine.execCalSnapHigh s
  | .calBeginMid => Sys2Proof.Machine.execCalBeginMid s
  | .calPollMid => Sys2Proof.Machine.execCalPollMid s
  | .calSnapMid => Sys2Proof.Machine.execCalSnapMid s
  | .calApply => Sys2Proof.Machine.execCalApply s
  | .txArm => Sys2Proof.Machine.execTxArm s
  | .txWait => Sys2Proof.Machine.execTxWait s
  | .txComplete => Sys2Proof.Machine.execTxComplete s
  | .txDelay => Sys2Proof.Machine.execTxDelay s
  | .rxArm => Sys2Proof.Machine.execRxArm s
  | .rxWait => Sys2Proof.Machine.execRxWait s
  | .rxInspect => Sys2Proof.Machine.execRxInspect s
  | .rxDrain => Sys2Proof.Machine.execRxDrain s
  | .rxFlush => Sys2Proof.Machine.execRxFlush s
  | .halt => Sys2Proof.Machine.execHalt s
  | .reserved12 low => Sys2Proof.Machine.execReserved12 low s
  | .reserved14 low => Sys2Proof.Machine.execReserved14 low s
  | .reserved18 low => Sys2Proof.Machine.execReserved18 low s
  | .resetPor => Sys2Proof.Machine.execResetPor s
  | .resetWdt => Sys2Proof.Machine.execResetWdt s
  | .edge => Sys2Proof.Machine.execEdge s
  | .isr => Sys2Proof.Machine.execIsr s
  | .portRead a d => Sys2Proof.Machine.execPortRead a d s
  | .portWrite a d => Sys2Proof.Machine.execPortWrite a d s
  | .portStrobe c => Sys2Proof.Machine.execPortStrobe c s
  | .portRfifo n => Sys2Proof.Machine.execPortRfifo n s
  | .portWfifo n => Sys2Proof.Machine.execPortWfifo n s
  | .portFdata b => Sys2Proof.Machine.execPortFdata b s
  | .portReserved w => Sys2Proof.Machine.execPortReserved w s

end Sys2Proof.Machine
end

