-- ==== Sys2Proof/Machine/Step.lean ====
section
/-!
DEFINITION. One step of a run (40_sequencer.md R79): the agent whose turn it is steps if it may, else it holds; once MFAULT
is set no agent steps.
-/

namespace Sys2Proof.Machine

/-- One turn (log entries 5, 6, 7). -/
def step (s : State) : Host.Outcome State Fault Refusal :=
  match s.mfault with
  | some r => .fault (.stopped r)
  | none =>
    match s.fetch s.pick with
    | none => .next (s.endTurn.readUnfetched s.pick)
    | some i => if s.mayStep s.pick then exec i s.endTurn else .next (hold s.endTurn)

/-- `s` with the opcode table's bits `w` where `step` fetches its next instruction (log entry 14). -/
def State.withFetchWord (s : State) (nbits w : Nat) : State :=
  s.placeWord nbits w

end Sys2Proof.Machine
end

