-- ==== Sys2Proof/Machine/Scenario.lean ====
section
/-!
DEFINITION. Scenarios (30_encoding.md R74, R75): the written form of a run, its lines and what running one does.
-/

namespace Sys2Proof.Machine

/-- A scenario line (R74, R75). A `seq` line names its phase by its code; `reads` are its `rd` answers with their
addresses, `fifo` its `fifo` answer. -/
inductive Line where
  | seq (phase : BitVec 5) (reads : List (Addr × Byte)) (fifo : List Byte)
  | edge
  | isr
  | reset (cause : ResetCause)
  /-- the shorthand `IRQ` (R75) -/
  | irq
  | comment (text : String)
deriving DecidableEq, Repr

/-- The shorthand `IRQ` is the two lines `EDGE` and `ISR` (R75). -/
def Line.expand : Line → List Line
  | .seq c rd ff => [.seq c rd ff]
  | .edge => [.edge]
  | .isr => [.isr]
  | .reset c => [.reset c]
  | .irq => [.edge, .isr]
  | .comment t => [.comment t]

/-- The register reads among records, in order. -/
def readsOf : List Record → List (Addr × Byte)
  | [] => []
  | .port (.read a d) :: rs => (a, d) :: readsOf rs
  | .port (.write _ _) :: rs => readsOf rs
  | .port (.strobe _) :: rs => readsOf rs
  | .port (.readFifo _ _) :: rs => readsOf rs
  | .port (.writeFifo _) :: rs => readsOf rs
  | .diag _ :: rs => readsOf rs
  | .kick :: rs => readsOf rs
  | .edge :: rs => readsOf rs
  | .reset _ :: rs => readsOf rs

/-- The bytes drained from the receive FIFO among records, in order. -/
def drainedOf : List Record → List Byte
  | [] => []
  | .port (.read _ _) :: rs => drainedOf rs
  | .port (.write _ _) :: rs => drainedOf rs
  | .port (.strobe _) :: rs => drainedOf rs
  | .port (.readFifo _ bs) :: rs => bs ++ drainedOf rs
  | .port (.writeFifo _) :: rs => drainedOf rs
  | .diag _ :: rs => drainedOf rs
  | .kick :: rs => drainedOf rs
  | .edge :: rs => drainedOf rs
  | .reset _ :: rs => drainedOf rs

/-- The next step, taken as turn `t`. -/
def stepAs (t : Turn) (s : State) : Host.Outcome State Fault Refusal :=
  step { s with script := t :: s.script }

/-- The answers a line lists are those its step drew. -/
def checkAnswers (reads : List (Addr × Byte)) (fifo : List Byte) (before : State) :
    Host.Outcome State Fault Refusal → Host.Outcome State Fault Refusal
  | .next t =>
    let made := t.trace.drop before.trace.length
    if readsOf made = reads ∧ drainedOf made = fifo then .next t else .refused .scenarioAnswers
  | .fault r => .fault r
  | .refused r => .refused r

/-- Run one line that is no shorthand (R74): the step named must be enabled, the phase named must be the one PH holds, and
the answers listed must be those of its reads. The `IRQ` shorthand is run by `runScenario`. -/
def runLine (l : Line) (s : State) : Host.Outcome State Fault Refusal :=
  match l with
  | .seq c rd ff =>
    if s.ph = c ∧ s.sequencerEnabled then
      checkAnswers rd ff s (stepAs .sequencer { s with answers := rd.map Prod.snd ++ ff })
    else .refused .scenarioNotEnabled
  | .edge => if s.mfault.isNone then stepAs (.event 2#2) s else .refused .scenarioNotEnabled
  | .isr => if s.interruptEnabled then stepAs (.event 3#2) s else .refused .scenarioNotEnabled
  | .reset .powerOn => if s.mfault.isNone then stepAs (.event 0#2) s else .refused .scenarioNotEnabled
  | .reset .watchdog => if s.mfault.isNone then stepAs (.event 1#2) s else .refused .scenarioNotEnabled
  | .irq => .refused .scenarioNotEnabled
  | .comment _ => .next s

/-- Run lines in order, stopping at the first fault or refusal. -/
def runLines : List Line → State → Host.Outcome State Fault Refusal
  | [], s => .next s
  | l :: ls, s =>
    match runLine l s with
    | .next t => runLines ls t
    | .fault r => .fault r
    | .refused r => .refused r

/-- Run a scenario: its shorthands are expanded first (R75). -/
def runScenario (ls : List Line) (s : State) : Host.Outcome State Fault Refusal :=
  runLines (ls.flatMap Line.expand) s

/-- The mnemonic of a phase code (30_encoding.md R63). -/
def phaseMnemonic (c : BitVec 5) : String :=
  match c.toNat with
  | 0x00 => "CONFIG"
  | 0x01 => "CAL_BEGIN_HIGH"
  | 0x02 => "CAL_POLL_HIGH"
  | 0x03 => "CAL_SNAP_HIGH"
  | 0x04 => "CAL_BEGIN_MID"
  | 0x05 => "CAL_POLL_MID"
  | 0x06 => "CAL_SNAP_MID"
  | 0x07 => "CAL_APPLY"
  | 0x08 => "TX_ARM"
  | 0x09 => "TX_WAIT"
  | 0x0A => "TX_COMPLETE"
  | 0x0B => "TX_DELAY"
  | 0x0C => "RX_ARM"
  | 0x0D => "RX_WAIT"
  | 0x0E => "RX_INSPECT"
  | 0x0F => "RX_DRAIN"
  | 0x10 => "RX_FLUSH"
  | 0x11 => "HALT"
  | _ => "RESERVED"

/-- The last `k` hexadecimal digits of `n`, upper case. -/
def hexDigits : Nat → Nat → List Char
  | 0, _ => []
  | k + 1, n => hexDigits k (n / 16) ++ [("0123456789ABCDEF".toList).getD (n % 16) '0']

/-- A scenario line as text (R74), with addresses in hexadecimal. -/
def Line.text : Line → List Char
  | .seq c rd ff =>
    "SEQ ".toList ++ (phaseMnemonic c).toList
      ++ rd.flatMap (fun e => " ; rd 0x".toList ++ hexDigits 4 e.1.toNat ++ " = 0x".toList ++ hexDigits 2 e.2.toNat)
      ++ (if ff.isEmpty then [] else " ; fifo".toList ++ ff.flatMap fun b => ' ' :: hexDigits 2 b.toNat)
  | .edge => "EDGE".toList
  | .isr => "ISR".toList
  | .reset .powerOn => "RESET POR".toList
  | .reset .watchdog => "RESET WDT".toList
  | .irq => "IRQ".toList
  | .comment t => "# ".toList ++ t.toList

end Sys2Proof.Machine
end

