-- ==== Sys2Proof/Safety.lean ====
section
/-!
DEFINITION. What the claims speak of: a bad end (40_sequencer.md R86), the invariant of the running machine (10_state.md R22,
R27, R28, R32, R35), the records since the last reset or checkpoint, the packets of the transmit service (44_transmit.md
R124, R126), the receive service (45_receive.md R133), and fairness (40_sequencer.md R84).
-/

namespace Sys2Proof.Machine

/-- "A state is a bad end if MFAULT is not `none`" (R86). -/
def BadEnd (s : State) : Prop :=
  s.mfault ≠ none

/-- The phases a mode's runs hold (10_state.md R22, 40_sequencer.md R85): CONFIG, calibration and HALT in both modes, the
transmit phases in MODE = TX, the receive phases in MODE = RX; never a reserved code (30_encoding.md R64). -/
def legalPhase (m : Mode) (c : BitVec 5) : Bool :=
  decide (c.toNat ≤ 0x07) || c == Phase.halt
    || match m with
       | .tx => decide (0x08 ≤ c.toNat ∧ c.toNat ≤ 0x0B)
       | .rx => decide (0x0C ≤ c.toNat ∧ c.toNat ≤ 0x10)

/-- The invariant of a running TRXSEQ. -/
structure State.Inv (s : State) : Prop where
  /-- no model fault (R14, R146) -/
  running : s.mfault = none
  /-- PH is a phase of the mode (R22, R64) -/
  phase : legalPhase s.par.mode s.ph = true
  /-- "FATAL = 1 exactly when PH = HALT" (R28) -/
  fatalHalt : s.fatal = true ↔ s.ph = Phase.halt
  /-- POLLS stays in its range (R32) -/
  pollsRange : ∀ p k, s.polls = some p → s.par.calPollLimit = some k → p ≤ k
  /-- a poll phase has its count, and reads left (R35, R93) -/
  pollsLeft : s.ph = Phase.calPollHigh ∨ s.ph = Phase.calPollMid →
    ∃ p, s.polls = some p ∧ ∀ k, s.par.calPollLimit = some k → p < k
  /-- CAL_BASE is written before CAL_BEGIN_MID reads it (R35) -/
  baseWritten : 0x02 ≤ s.ph.toNat ∧ s.ph.toNat ≤ 0x04 → s.calBase.isSome = true
  /-- CAL_H is written before CAL_APPLY reads it (R35) -/
  highWritten : 0x04 ≤ s.ph.toNat ∧ s.ph.toNat ≤ 0x07 → s.calH.isSome = true
  /-- CAL_M is written before CAL_APPLY reads it (R35) -/
  midWritten : s.ph = Phase.calApply → s.calM.isSome = true
  /-- RXN is written, and not 0, before RX_DRAIN reads it (R35, R129) -/
  countWritten : s.ph = Phase.rxDrain → ∃ n, s.rxn = some n ∧ n ≠ 0x00#8
  /-- in MODE = RX nothing is transmitted: HB and SEQ keep their reset values (R27, R29) -/
  rxQuiet : s.par.mode = .rx → s.hb = false ∧ s.seq = 0x0001#16

/-- One record more since the last reset: a reset record starts anew. -/
def addSinceReset (acc : List Record) (r : Record) : List Record :=
  match r with
  | .reset _ => []
  | .port p => acc ++ [.port p]
  | .diag d => acc ++ [.diag d]
  | .kick => acc ++ [.kick]
  | .edge => acc ++ [.edge]

/-- The records after the last reset record (70_reset_and_hazards.md R161), all of them where there is none. -/
def sinceReset (tr : List Record) : List Record :=
  tr.foldl addSinceReset []

/-- One record more since the last checkpoint: a kick or a reset record starts anew. -/
def addSinceKick (acc : List Record) (r : Record) : List Record :=
  match r with
  | .reset _ => []
  | .kick => []
  | .port p => acc ++ [.port p]
  | .diag d => acc ++ [.diag d]
  | .edge => acc ++ [.edge]

/-- The records after the last checkpoint or reset (46_watchdog_loop.md R137). -/
def sinceKick (tr : List Record) : List Record :=
  tr.foldl addSinceKick []

/-- The packets written to the TX FIFO among records, in order. -/
def packetsOf : List Record → List (List Byte)
  | [] => []
  | .port (.writeFifo bs) :: rs => bs :: packetsOf rs
  | .port (.read _ _) :: rs => packetsOf rs
  | .port (.write _ _) :: rs => packetsOf rs
  | .port (.strobe _) :: rs => packetsOf rs
  | .port (.readFifo _ _) :: rs => packetsOf rs
  | .diag _ :: rs => packetsOf rs
  | .kick :: rs => packetsOf rs
  | .edge :: rs => packetsOf rs
  | .reset _ :: rs => packetsOf rs

/-- The `k`-th packet after a reset, counted from 0 (44_transmit.md R124): sequence 1 + k. -/
def packetAt (p : Params) (k : Nat) : List Byte :=
  buildTxPacket (0x0001#16 + BitVec.ofNat 16 k) (payloadOf p (0x0001#16 + BitVec.ofNat 16 k))

/-- A packet has been written and its sequence number not yet passed: between TX_ARM and TX_COMPLETE. -/
def State.packetPending (s : State) : Bool :=
  s.ph == Phase.txWait || s.ph == Phase.txComplete

/-- The sequence law (44_transmit.md R124) as a property of a state: the packets since the last reset are the ones numbered
1, 2, ..., and SEQ is the number of the next packet (of the last one while it is pending). -/
def State.SequenceLaw (s : State) : Prop :=
  ∃ k : Nat, packetsOf (sinceReset s.trace) = (List.range k).map (packetAt s.par)
    ∧ (if s.packetPending then 1 ≤ k ∧ s.seq = BitVec.ofNat 16 k else s.seq = 0x0001#16 + BitVec.ofNat 16 k)
    ∧ (s.ph.toNat ≤ 0x07 ∨ s.ph = Phase.halt → k = 0)

/-- The checkpoint law (46_watchdog_loop.md R137, MODE = TX) as a property of a state: since the last checkpoint or reset, one
packet has been written from TX_ARM's step to TX_DELAY's, none elsewhere. -/
def State.CheckpointLaw (s : State) : Prop :=
  (packetsOf (sinceKick s.trace)).length
    = if s.ph = Phase.txWait ∨ s.ph = Phase.txComplete ∨ s.ph = Phase.txDelay then 1 else 0

/-- Records without the environment's edges: those the sequencer and the resets made. -/
def withoutEdges (rs : List Record) : List Record :=
  rs.filter fun r => r != .edge

/-- The records of RX_INSPECT with a count that is not 0 (45_receive.md R129). -/
def inspection (p : Params) (n m : Byte) : List Record :=
  [.port (.read p.aNumRxBytes n), .port (.read p.aMarcState m)]

/-- The records of one receive service from its arm to its checkpoint (45_receive.md R127 to R131, R133): one CMD_SRX strobe
first, one of the service's ends, and one Kick last. -/
inductive OneService (p : Params) : List Record → Prop where
  /-- `Empty` in RX_INSPECT -/
  | empty : OneService p [.port (.strobe p.cmdSrx), .port (.read p.aNumRxBytes 0x00#8), .kick]
  /-- `Error`, then RX_FLUSH -/
  | flushed (n m : Byte) (some_bytes : n ≠ 0x00#8) (error : m.toNat % 32 = p.fifoErrCode.toNat) :
    OneService p ([.port (.strobe p.cmdSrx)] ++ inspection p n m
      ++ [.port (.strobe p.cmdSfrx), .diag (.fifoError .statusOverflow), .kick])
  /-- `Ready`, then RX_DRAIN of a count that the receive buffer holds -/
  | drained (n m : Byte) (bs : List Byte) (some_bytes : n ≠ 0x00#8) (ready : m.toNat % 32 ≠ p.fifoErrCode.toNat)
      (fits : n.toNat ≤ p.rxBufCap) (all : bs.length = n.toNat) :
    OneService p ([.port (.strobe p.cmdSrx)] ++ inspection p n m
      ++ [.port (.readFifo n bs), .diag (reportOf (parseRxPacket p.rxBufCap bs)), .kick])
  /-- `Ready`, then RX_DRAIN of a count above RX_BUF_CAP -/
  | overCapacity (n m : Byte) (ready : m.toNat % 32 ≠ p.fifoErrCode.toNat) (above : p.rxBufCap < n.toNat) :
    OneService p ([.port (.strobe p.cmdSrx)] ++ inspection p n m
      ++ [.port (.strobe p.cmdSfrx), .diag (.framingError none n.toNat), .kick])

/-- The receive law (46_watchdog_loop.md R137, 45_receive.md R133, MODE = RX) as a property of a state: what the receive service
has recorded since the last checkpoint, edges apart. Nothing before RX_ARM; then one CMD_SRX strobe; after RX_INSPECT its two
reads, whose count RXN holds where it is to be drained. -/
structure State.ReceiveLaw (s : State) : Prop where
  /-- before RX_ARM -/
  beforeArm : s.ph = Phase.rxArm → withoutEdges (sinceKick s.trace) = []
  /-- after RX_ARM -/
  armed : s.ph = Phase.rxWait ∨ s.ph = Phase.rxInspect →
    withoutEdges (sinceKick s.trace) = [.port (.strobe s.par.cmdSrx)]
  /-- after RX_INSPECT gave `Ready` -/
  toDrain : s.ph = Phase.rxDrain → ∃ n m, s.rxn = some n ∧ n ≠ 0x00#8 ∧ m.toNat % 32 ≠ s.par.fifoErrCode.toNat
    ∧ withoutEdges (sinceKick s.trace) = [.port (.strobe s.par.cmdSrx)] ++ inspection s.par n m
  /-- after RX_INSPECT gave `Error` -/
  toFlush : s.ph = Phase.rxFlush → ∃ n m, n ≠ 0x00#8 ∧ m.toNat % 32 = s.par.fifoErrCode.toNat
    ∧ withoutEdges (sinceKick s.trace) = [.port (.strobe s.par.cmdSrx)] ++ inspection s.par n m

/-- The states a machine reaches. -/
inductive Reachable (s : State) : State → Prop where
  | start : Reachable s s
  | step {t u : State} : Reachable s t → Machine.step t = .next u → Reachable s u

/-- An endless run of the model. -/
def IsRun (run : Nat → State) : Prop :=
  ∀ n, step (run n) = .next (run (n + 1))

/-- Weak fairness (40_sequencer.md R84), a premise and no property of the step (log entry 18): an agent that stays enabled
eventually has the turn. -/
def WeaklyFair (run : Nat → State) : Prop :=
  (∀ n, (∀ m, n ≤ m → (run m).interruptEnabled = true) → ∃ m, n ≤ m ∧ (run m).pick = .event 3#2)
    ∧ ∀ n, (∀ m, n ≤ m → (run m).sequencerEnabled = true) → ∃ m, n ≤ m ∧ (run m).pick = .sequencer

end Sys2Proof.Machine
end

