-- ==== Sys2Proof/Certificates/Slice0/Obligations.lean ====
section
/-!
DEFINITION. The statements for the provers. `s.consume k` is `s` after `k` of the radio's answers have been drawn and
`s.answerAt k` the `k`-th answer from now (40_sequencer.md R83): both stand for any answers, since a statement holds for
every state. An equation `exec i s = .next t` with `t` a record update of `s` is the instruction's result, its completion and
its frame at once: every element the update does not name is as in `s`.
-/

open Sys2Proof Sys2Proof.Machine

/-- CONFIG (R87): the profile's writes in list order, the Config record, PH = 0x01; nothing else. -/
def Obligations.ConfigResult : Prop :=
  ∀ s : State, exec .config s = .next
    { s with
      ph := 0x01#5
      trace := s.trace ++ s.par.regProfile.map (fun e => .port (.write e.1 e.2))
        ++ [.diag (.config s.par.mode s.par.regProfile.length)] }

/-- CAL_BEGIN_HIGH (R95), with the sum mod 2^8. -/
def Obligations.CalBeginHighResult : Prop :=
  ∀ s : State,
    let b := s.answerAt 0
    exec .calBeginHigh s = .next
      { s.consume 1 with
        ph := 0x02#5
        calBase := some b
        polls := some 0
        trace := s.trace ++
          [.port (.write s.par.aVcoCap 0x00#8), .port (.read s.par.aCalCtrl b),
           .port (.write s.par.aCalCtrl (BitVec.ofNat 8 ((b.toNat + s.par.vcdacStartOffset.toNat) % 2 ^ 8))),
           .port (.strobe s.par.cmdScal)] }

/-- The settle polls (R93, R96, R99): one read of the machine-state register, compared whole; a match goes to the run's
snapshot, the CAL_POLL_LIMIT-th read that does not match raises CalibrationTimeout, any other polls again. For POLLS
unwritten see `UnwrittenReadFaults`. -/
def Obligations.CalPollResult : Prop :=
  ∀ (s : State) (i : Instr) (r : CalRun) (own snap : BitVec 5),
    (i = .calPollHigh ∧ r = .high ∧ own = 0x02#5 ∧ snap = 0x03#5
      ∨ i = .calPollMid ∧ r = .mid ∧ own = 0x05#5 ∧ snap = 0x06#5) →
    let m := s.answerAt 0
    let read := s.trace ++ [.port (.read s.par.aMarcState m)]
    ∀ n : Nat, s.polls = some n →
      (m = s.par.marcSettled →
        exec i s = .next { s.consume 1 with ph := snap, polls := some (n + 1), trace := read })
      ∧ (m ≠ s.par.marcSettled → s.par.calPollLimit = some (n + 1) →
        exec i s = .next
          { s.consume 1 with
            ph := 0x11#5
            fatal := true
            polls := some (n + 1)
            trace := read ++ [.diag (.calTimeout r (n + 1))] })
      ∧ (m ≠ s.par.marcSettled → s.par.calPollLimit ≠ some (n + 1) →
        exec i s = .next { s.consume 1 with ph := own, polls := some (n + 1), trace := read })

/-- The snapshots (R97, R100): three reads in the listed order. -/
def Obligations.CalSnapResult : Prop :=
  ∀ s : State,
    let w : CalResult := { vco2 := s.answerAt 0, vco4 := s.answerAt 1, chp := s.answerAt 2 }
    let reads := s.trace ++
      [.port (.read s.par.aFsVco2 (s.answerAt 0)), .port (.read s.par.aFsVco4 (s.answerAt 1)),
       .port (.read s.par.aFsChp (s.answerAt 2))]
    exec .calSnapHigh s = .next { s.consume 3 with ph := 0x04#5, calH := some w, trace := reads }
    ∧ exec .calSnapMid s = .next { s.consume 3 with ph := 0x07#5, calM := some w, trace := reads }

/-- CAL_BEGIN_MID (R98): the value CAL_BASE holds is written, nothing is read. For CAL_BASE unwritten see
`UnwrittenReadFaults`. -/
def Obligations.CalBeginMidResult : Prop :=
  ∀ (s : State) (b : Byte), s.calBase = some b →
    exec .calBeginMid s = .next
      { s with
        ph := 0x05#5
        polls := some 0
        trace := s.trace ++
          [.port (.write s.par.aVcoCap 0x00#8), .port (.write s.par.aCalCtrl b), .port (.strobe s.par.cmdScal)] }

/-- CAL_APPLY (R94, R101): the whole high triple where its vco2 is strictly greater as an unsigned number, else the whole mid
triple, is written in the listed order; then the kick and the arm phase of the mode. For an unwritten triple see
`UnwrittenReadFaults`. -/
def Obligations.CalApplyResult : Prop :=
  ∀ (s : State) (h m w : CalResult), s.calH = some h → s.calM = some m →
    (m.vco2.toNat < h.vco2.toNat ∧ w = h ∨ h.vco2.toNat ≤ m.vco2.toNat ∧ w = m) →
    exec .calApply s = .next
      { s with
        ph := if s.par.mode = .tx then 0x08#5 else 0x0C#5
        trace := s.trace ++
          [.port (.write s.par.aFsVco2 w.vco2), .port (.write s.par.aFsVco4 w.vco4),
           .port (.write s.par.aFsChp w.chp), .kick] }

/-- A phase that reads an unwritten working register records `fault Unwritten(name)` in MFAULT (R35, R14, R38). That the fault
is recorded by a next state, that the port records issued before the read stay and the answers they drew are drawn, that
nothing else is written, and that CAL_H is read before CAL_M, are the model's readings (log entries 7, 8 and 22). -/
def Obligations.UnwrittenReadFaults : Prop :=
  ∀ s : State,
    (s.polls = none → ∀ i : Instr, i = .calPollHigh ∨ i = .calPollMid →
      exec i s = .next
        { s.consume 1 with
          mfault := some (.unwritten .polls)
          trace := s.trace ++ [.port (.read s.par.aMarcState (s.answerAt 0))] })
    ∧ (s.calBase = none →
      exec .calBeginMid s = .next
        { s with
          mfault := some (.unwritten .calBase)
          trace := s.trace ++ [.port (.write s.par.aVcoCap 0x00#8)] })
    ∧ (s.calH = none → exec .calApply s = .next { s with mfault := some (.unwritten .calH) })
    ∧ (s.calH ≠ none → s.calM = none → exec .calApply s = .next { s with mfault := some (.unwritten .calM) })
    ∧ (s.rxn = none → exec .rxDrain s = .next { s with mfault := some (.unwritten .rxn) })

/-- TX_ARM (R120, R106): the packet of SEQ and its payload goes to the TX FIFO, then the TX strobe; SEQ and EVT are not
written. -/
def Obligations.TxArmResult : Prop :=
  ∀ s : State,
    let pl := payloadOf s.par s.seq
    exec .txArm s = .next
      { s with
        ph := 0x09#5
        trace := s.trace ++
          [.port (.writeFifo
            ([BitVec.ofNat 8 (3 + pl.length), BitVec.ofNat 8 (s.seq.toNat / 256), BitVec.ofNat 8 (s.seq.toNat % 256)] ++ pl)),
           .port (.strobe s.par.cmdStx)] }

/-- The packet TX_ARM writes is legal on the wire (R71, R72): its first byte is its number of bytes, which is at least 3 and
at most PKT_LEN_MAX, below FIFO_CAPACITY (R46). -/
def Obligations.TransmittedPacketIsLegal : Prop :=
  ∀ (s t : State) (bs : List Byte), exec .txArm s = .next t →
    t.trace = s.trace ++ [.port (.writeFifo bs), .port (.strobe s.par.cmdStx)] →
    3 ≤ bs.length ∧ bs.length ≤ s.par.pktLenMax ∧ s.par.pktLenMax < s.par.fifoCapacity
      ∧ ∃ len rest, bs = len :: rest ∧ len.toNat = bs.length

/-- The two waits (R121, R128): EVT = 1 is observed, not cleared, and PH goes on. With EVT = 0 the sequencer holds:
see `HoldsWhereNotEnabled`. -/
def Obligations.WaitResult : Prop :=
  ∀ (s : State) (i : Instr) (after : BitVec 5),
    (i = .txWait ∧ after = 0x0A#5 ∨ i = .rxWait ∧ after = 0x0E#5) →
    s.evt = true → exec i s = .next { s with ph := after }

/-- TX_COMPLETE (R122): flag cleared, heartbeat toggled, sequence incremented mod 2^16, all in one step. -/
def Obligations.TxCompleteResult : Prop :=
  ∀ s : State, exec .txComplete s = .next
    { s with ph := 0x0B#5, evt := false, hb := !s.hb, seq := BitVec.ofNat 16 ((s.seq.toNat + 1) % 2 ^ 16) }

/-- TX_DELAY (R123): one Kick, back to TX_ARM. The busy-wait has no effect on state, so where it stands before the kick shows
in no state. -/
def Obligations.TxDelayResult : Prop :=
  ∀ s : State, exec .txDelay s = .next { s with ph := 0x08#5, trace := s.trace ++ [.kick] }

/-- RX_ARM (R127): the RX strobe; EVT is not cleared. -/
def Obligations.RxArmResult : Prop :=
  ∀ s : State, exec .rxArm s = .next { s with ph := 0x0D#5, trace := s.trace ++ [.port (.strobe s.par.cmdSrx)] }

/-- RX_INSPECT (R129, R107): the count first, the machine-state register only where the count is not 0; Empty ends the
service, Error goes to the flush, Ready latches the count. -/
def Obligations.RxInspectResult : Prop :=
  ∀ s : State,
    let n := s.answerAt 0
    let m := s.answerAt 1
    let counted : List Record := s.trace ++ [.port (.read s.par.aNumRxBytes n)]
    let both : List Record := counted ++ [.port (.read s.par.aMarcState m)]
    (n = 0 → exec .rxInspect s = .next { s.consume 1 with ph := 0x0C#5, evt := false, trace := counted ++ [.kick] })
    ∧ (n ≠ 0 → m.toNat % 32 = s.par.fifoErrCode.toNat →
        exec .rxInspect s = .next { s.consume 2 with ph := 0x10#5, trace := both })
    ∧ (n ≠ 0 → m.toNat % 32 ≠ s.par.fifoErrCode.toNat →
        exec .rxInspect s = .next { s.consume 2 with ph := 0x0F#5, rxn := some n, trace := both })

/-- RX_DRAIN (R130): a count above RX_BUF_CAP is flushed and reported; else the bytes are drained, parsed and reported; then
the latch is cleared, one Kick, re-arm. What the parse answers is `ParseResult`; for RXN unwritten see
`UnwrittenReadFaults`. For RXN = 0, which only a hand-built state holds, the spec gives the parse no bytes to read: its
length byte is then the model's free value (log entry 15). -/
def Obligations.RxDrainResult : Prop :=
  ∀ (s : State) (n : Byte), s.rxn = some n →
    (s.par.rxBufCap < n.toNat →
      exec .rxDrain s = .next
        { s with
          ph := 0x0C#5
          evt := false
          trace := s.trace ++
            [.port (.strobe s.par.cmdSfrx), .diag (.framingError none n.toNat), .kick] })
    ∧ (n.toNat ≤ s.par.rxBufCap →
      let bs := (List.range n.toNat).map s.answerAt
      ∃ d : Diag,
        (d = match parseRxPacket s.par.rxBufCap bs with
          | .packet l q pl => .rxPacket l q pl
          | .framingError l c => .framingError (some l) c)
        ∧ exec .rxDrain s = .next
          { s.consume n.toNat with
            ph := 0x0C#5
            evt := false
            trace := s.trace ++ [.port (.readFifo n bs), .diag d, .kick] })

/-- RX_FLUSH (R131): the flush strobe, the diagnostic, the latch cleared, one Kick, re-arm. -/
def Obligations.RxFlushResult : Prop :=
  ∀ s : State, exec .rxFlush s = .next
    { s with
      ph := 0x0C#5
      evt := false
      trace := s.trace ++ [.port (.strobe s.par.cmdSfrx), .diag (.fifoError .statusOverflow), .kick] }

/-- HALT (R89): no turn but a reset leaves it, issues a port operation or a kick. That the sequencer's turn in HALT is a step
that changes nothing is the model's reading of a hold (log entry 6). -/
def Obligations.HaltLeftOnlyByReset : Prop :=
  (∀ s : State, exec .halt s = .next s)
  ∧ ∀ s t : State, s.ph = 0x11#5 → s.pick ≠ .event 0#2 → s.pick ≠ .event 1#2 → step s = .next t →
      t.ph = 0x11#5 ∧ t.fatal = s.fatal
        ∧ (t.trace = s.trace ∨ t.trace = s.trace ++ [.edge])

/-- The reserved codes (R90): `fault ReservedPhase(PH)`, for each of the three rows and for every code 0x12 to 0x1F; that the
fault is recorded by a next state is the model's reading (log entry 7). -/
def Obligations.ReservedPhaseResult : Prop :=
  ∀ s : State,
    (∀ low : BitVec 1, exec (.reserved12 low) s =
      .next { s with mfault := some (.reservedPhase (BitVec.ofNat 5 (0x12 + low.toNat))) })
    ∧ (∀ low : BitVec 2, exec (.reserved14 low) s =
      .next { s with mfault := some (.reservedPhase (BitVec.ofNat 5 (0x14 + low.toNat))) })
    ∧ (∀ low : BitVec 3, exec (.reserved18 low) s =
      .next { s with mfault := some (.reservedPhase (BitVec.ofNat 5 (0x18 + low.toNat))) })
    ∧ ∀ c : BitVec 5, 0x12 ≤ c.toNat → exec (decodePhase c) s = .next { s with mfault := some (.reservedPhase c) }

/-- EDGE (R112): the record and the pending bit. -/
def Obligations.EdgeResult : Prop :=
  ∀ s : State, exec .edge s = .next { s with irqPend := true, trace := s.trace ++ [.edge] }

/-- ISR (R114): the latch is set, the pending bit cleared, nothing else is touched. -/
def Obligations.IsrResult : Prop :=
  ∀ s : State, exec .isr s = .next { s with evt := true, irqPend := false }

/-- The two resets (R160): one record with the cause, every element at its reset value, ST Idle and STATUS as the table of
R160 gives them; MFAULT, TRACE and the parameters stay. -/
def Obligations.ResetResult : Prop :=
  ∀ (s : State) (i : Instr) (c : ResetCause),
    (i = .resetPor ∧ c = .powerOn ∨ i = .resetWdt ∧ c = .watchdog) →
    let t : State :=
      { s with
        ph := 0x00#5
        evt := false
        irqPend := false
        seq := 0x0001#16
        hb := false
        fatal := false
        calBase := none
        calH := none
        calM := none
        polls := none
        rxn := none
        trace := s.trace ++ [.reset c] }
    exec i s = .next t ∧ t.st = some .idle ∧ t.status = some (if s.par.mode = .tx then 0x0000#16 else 0x1000#16)

/-- PORT_READ, PORT_WRITE, PORT_STROBE (R69): outside a burst the trace reader takes the record the word packs. That a port
word feeds a reader and touches nothing of TRXSEQ is the model's choice (log entry 10). -/
def Obligations.PortSingleWordResult : Prop :=
  ∀ s : State, s.reader.invalid = none → s.reader.burst = none →
    let took (p : PortRecord) : State :=
      { s with reader := { s.reader with index := s.reader.index + 1, records := s.reader.records ++ [p] } }
    (∀ a d, exec (.portRead a d) s = .next (took (.read a d)))
    ∧ (∀ a d, exec (.portWrite a d) s = .next (took (.write a d)))
    ∧ ∀ c, exec (.portStrobe c) s = .next (took (.strobe c))

/-- PORT_RFIFO, PORT_WFIFO, PORT_FDATA (R69): a header opens a burst of its count, an FDATA word adds the next byte, and the
last one completes the record (log entry 10). -/
def Obligations.PortBurstResult : Prop :=
  ∀ s : State, s.reader.invalid = none →
    (s.reader.burst = none → ∀ n : Byte, n ≠ 0 →
      exec (.portRfifo n) s = .next
        { s with reader := { s.reader with
            index := s.reader.index + 1
            burst := some { header := s.reader.index, isWrite := false, count := n, bytes := [] } } }
      ∧ exec (.portWfifo n) s = .next
        { s with reader := { s.reader with
            index := s.reader.index + 1
            burst := some { header := s.reader.index, isWrite := true, count := n, bytes := [] } } })
    ∧ ∀ (b : Burst) (x : Byte), s.reader.burst = some b →
      (b.bytes.length + 1 ≠ b.count.toNat →
        exec (.portFdata x) s = .next
          { s with reader := { s.reader with
              index := s.reader.index + 1
              burst := some { b with bytes := b.bytes ++ [x] } } })
      ∧ (b.bytes.length + 1 = b.count.toNat →
        exec (.portFdata x) s = .next
          { s with reader := { s.reader with
              index := s.reader.index + 1
              burst := none
              records := s.reader.records ++
                [if b.isWrite then .writeFifo (b.bytes ++ [x]) else .readFifo b.count (b.bytes ++ [x])] } })

/-- The invalid words of R70 that are rows of the table: a reserved kind, an empty burst, an FDATA word with no unfinished burst,
and a header whose burst another word cuts short; the reader reports an index (the header's in the last case, log entry 11),
and reads nothing after it. Words with a bit set where R70 wants 0 are no rows: `MalformedPortWordIsReported`. A burst that
the end of the trace cuts short: `ShortBurstAtEndIsReported`. -/
def Obligations.PortInvalidWordResult : Prop :=
  ∀ s : State,
    let reports (k : Nat) : State := { s with reader := { s.reader with invalid := some k } }
    (s.reader.invalid = none → s.reader.burst = none →
      (∀ w, exec (.portReserved w) s = .next (reports s.reader.index))
      ∧ exec (.portRfifo 0) s = .next (reports s.reader.index)
      ∧ exec (.portWfifo 0) s = .next (reports s.reader.index)
      ∧ ∀ x, exec (.portFdata x) s = .next (reports s.reader.index))
    ∧ (∀ b : Burst, s.reader.invalid = none → s.reader.burst = some b →
      (∀ a d, exec (.portRead a d) s = .next (reports b.header))
      ∧ (∀ a d, exec (.portWrite a d) s = .next (reports b.header))
      ∧ (∀ c, exec (.portStrobe c) s = .next (reports b.header))
      ∧ (∀ n, exec (.portRfifo n) s = .next (reports b.header))
      ∧ (∀ n, exec (.portWfifo n) s = .next (reports b.header))
      ∧ ∀ w, exec (.portReserved w) s = .next (reports b.header))
    ∧ ∀ k, s.reader.invalid = some k → ∀ p : PortWord, exec p.toInstr s = .next s

/-! ### The step -/

/-- A step runs the instruction its turn decodes (R82, R79): the phase in PH with no interrupt pending, an event of any code
but 3, ISR with an interrupt pending, a port word; and the turn is taken from the script and counted. -/
def Obligations.StepRunsDecodedInstruction : Prop :=
  ∀ s : State, s.mfault = none →
    let after : State := { s with script := s.script.tail, turn := s.turn + 1 }
    (s.pick = .sequencer → s.irqPend = false → step s = exec (decodePhase s.ph) after)
    ∧ (∀ e : BitVec 2, s.pick = .event e → (e = 3#2 → s.irqPend = true) → step s = exec (decodeEvent e) after)
    ∧ ∀ (w : BitVec 32) (i : Instr), s.pick = .word w → decodePort w = .ok i → step s = exec i after

/-- An agent with no enabled step holds (R81, R113): the sequencer while an interrupt is pending, in HALT, and in a wait with
EVT = 0; the interrupt agent with nothing pending. Only the turn is taken. That a turn given to such an agent is a step that
changes nothing is the model's (log entry 6). -/
def Obligations.HoldsWhereNotEnabled : Prop :=
  ∀ s : State, s.mfault = none →
    let after : State := { s with script := s.script.tail, turn := s.turn + 1 }
    (s.pick = .sequencer →
      (s.irqPend = true ∨ s.ph = 0x11#5 ∨ ((s.ph = 0x09#5 ∨ s.ph = 0x0D#5) ∧ s.evt = false)) → step s = .next after)
    ∧ (s.pick = .event 3#2 → s.irqPend = false → step s = .next after)

/-- Once MFAULT is set no agent steps (R38, R90): whoever has the turn, the step stops the machine with that reason, as the
model's outcome `fault` (log entry 7). -/
def Obligations.NoStepAfterModelFault : Prop :=
  ∀ (s : State) (r : ModelFault), s.mfault = some r → ∀ t : Turn,
    step { s with script := t :: s.script } = .fault (.stopped r) ∧ step s = .fault (.stopped r)

/-- A word placed where the step fetches is what the next step runs (log entry 14). -/
def Obligations.PlacedWordRunsNext : Prop :=
  ∀ s : State, s.mfault = none →
    (∀ c : BitVec 5, step (s.withFetchWord 8 c.toNat) =
      exec (decodePhase c) { s with ph := c, irqPend := false, turn := s.turn + 1 })
    ∧ (∀ e : BitVec 2, step (s.withFetchWord 2 e.toNat) =
      exec (decodeEvent e) { s with irqPend := s.irqPend || e == 3#2, turn := s.turn + 1 })
    ∧ ∀ (w : BitVec 32) (i : Instr), decodePort w = .ok i →
      step (s.withFetchWord 32 w.toNat) = exec i { s with turn := s.turn + 1 }

/-! ### Invariants and frames -/

/-- The invariant holds right after reset, in every configuration (R160). -/
def Obligations.InvariantAtReset : Prop :=
  State.reset.Inv ∧ ∀ c : Config, (State.resetOf c).Inv

/-- Every step keeps the invariant, whoever has the turn and whatever the radio answers. -/
def Obligations.StepKeepsInvariant : Prop :=
  ∀ s t : State, s.Inv → step s = .next t → t.Inv

/-- From a state with the invariant a run never ends and never records a model fault (R14, R146, R85). That a turn given to a
holding agent (HALT, a wait with EVT = 0, an interrupt with nothing pending) answers a next state too is the model's reading
(log entry 6). -/
def Obligations.RunningMachineNeverFaults : Prop :=
  ∀ s t : State, s.Inv → Reachable s t → ¬ BadEnd t ∧ ∃ u, step t = .next u

/-- The sequence law (R124, R162) is kept by every step: the packets written since the last reset are those numbered 1, 2, …
mod 2^16, in order, with no skipped or repeated value, and SEQ is the next number. -/
def Obligations.StepKeepsSequenceLaw : Prop :=
  (∀ c : Config, (State.resetOf c).SequenceLaw)
  ∧ ∀ s t : State, s.Inv → s.SequenceLaw → step s = .next t → t.SequenceLaw

/-- The checkpoint law (R137, R126) is kept by every step: between two checkpoints of the transmit service exactly one packet
is written. For MODE = RX see `ReceiveServiceLaw`. -/
def Obligations.StepKeepsCheckpointLaw : Prop :=
  (∀ c : Config, (State.resetOf c).CheckpointLaw)
  ∧ ∀ s t : State, s.Inv → s.CheckpointLaw → step s = .next t → t.CheckpointLaw

/-- A kick is made at the checkpoints of R135 and nowhere else (R136), and there it is the step's last record (R137). -/
def Obligations.KickOnlyAtCheckpoints : Prop :=
  ∀ (s t : State) (i : Instr), exec i s = .next t →
    let checkpoint : Prop :=
      i = .calApply ∧ s.calH ≠ none ∧ s.calM ≠ none ∨ i = .txDelay ∨ i = .rxInspect ∧ s.answerAt 0 = 0
        ∨ i = .rxDrain ∧ s.rxn ≠ none ∨ i = .rxFlush
    (checkpoint → t.trace.count .kick = s.trace.count .kick + 1 ∧ t.trace.getLast? = some .kick)
    ∧ (¬ checkpoint → t.trace.count .kick = s.trace.count .kick)

/-- TRACE is append-only (R36): every step leaves what was recorded. -/
def Obligations.TraceIsAppendOnly : Prop :=
  ∀ s t : State, step s = .next t → s.trace <+: t.trace

/-- No rule reads TRACE (R36, R157): with another TRACE every instruction does the same and appends the same records. -/
def Obligations.TraceIsNeverRead : Prop :=
  ∀ (i : Instr) (s t : State) (tr new : List Record),
    exec i s = .next t → t.trace = s.trace ++ new →
    exec i { s with trace := tr } = .next { t with trace := tr ++ new }

/-- Who writes what: an instruction that changes a register is one of those the spec names as its writers (R18, R23, R26 to
R29, R31 to R33, R116), and no instruction changes a parameter (R165) or clears MFAULT (R38). -/
def Obligations.RegistersHaveOnlyTheirWriters : Prop :=
  ∀ (i : Instr) (s t : State), exec i s = .next t →
    let reset : Prop := i = .resetPor ∨ i = .resetWdt
    t.cfg = s.cfg
    ∧ (t.seq ≠ s.seq → i = .txComplete ∨ reset)
    ∧ (t.hb ≠ s.hb → i = .txComplete ∨ reset)
    ∧ (t.fatal ≠ s.fatal → i = .calPollHigh ∨ i = .calPollMid ∨ reset)
    ∧ (t.evt ≠ s.evt → i = .isr ∧ t.evt = true
        ∨ (i = .txComplete ∨ i = .rxInspect ∨ i = .rxDrain ∨ i = .rxFlush ∨ reset) ∧ t.evt = false)
    ∧ (t.irqPend ≠ s.irqPend → i = .edge ∧ t.irqPend = true ∨ (i = .isr ∨ reset) ∧ t.irqPend = false)
    ∧ (t.calBase ≠ s.calBase → i = .calBeginHigh ∨ reset)
    ∧ (t.calH ≠ s.calH → i = .calSnapHigh ∨ reset)
    ∧ (t.calM ≠ s.calM → i = .calSnapMid ∨ reset)
    ∧ (t.polls ≠ s.polls → i = .calBeginHigh ∨ i = .calBeginMid ∨ i = .calPollHigh ∨ i = .calPollMid ∨ reset)
    ∧ (t.rxn ≠ s.rxn → i = .rxInspect ∨ reset)
    ∧ (t.ph ≠ s.ph → (encode i).1 = .phase ∨ reset)
    ∧ (s.mfault ≠ none → t.mfault ≠ none)
    ∧ (t.reader ≠ s.reader → (encode i).1 = .port)

/-- Only the sequencer issues port operations (R43, R170): an event appends no port record and draws no answer, and a word of a
trace file appends no record at all. -/
def Obligations.OnlySequencerUsesPort : Prop :=
  ∀ (i : Instr) (s t : State), exec i s = .next t →
    ((encode i).1 = .event → t.answers = s.answers ∧ t.draws = s.draws
        ∧ ∃ new, t.trace = s.trace ++ new ∧ ∀ r ∈ new, ∀ p : PortRecord, r ≠ .port p)
    ∧ ((encode i).1 = .port → t = { s with reader := t.reader })

/-- The modes exclude each other's states (R22). -/
def Obligations.ModesAreExclusive : Prop :=
  ∀ s : State, s.Inv →
    (s.par.mode = .tx → s.st ≠ some .receiveArmed ∧ s.st ≠ some .receiveComplete ∧ s.st ≠ some .fifoError)
    ∧ (s.par.mode = .rx → s.st ≠ some .transmitArmed ∧ s.st ≠ some .transmitComplete)
    ∧ s.st ≠ none

/-- STATUS (R37), bit by bit, wherever ST has a value. -/
def Obligations.StatusLayout : Prop :=
  ∀ (s : State) (st : TransceiverState), s.st = some st → ∃ w : BitVec 16, s.status = some w
    ∧ w.extractLsb' 0 5 = s.ph ∧ w.extractLsb' 5 3 = st.code
    ∧ w.getLsbD 8 = s.evt ∧ w.getLsbD 9 = s.irqPend ∧ w.getLsbD 10 = s.hb ∧ w.getLsbD 11 = s.fatal
    ∧ w.getLsbD 12 = (s.par.mode == .rx) ∧ w.extractLsb' 13 3 = 0#3

/-! ### Encodings -/

/-- Decoding the encoding of a well-formed instruction gives it back, with every operand at every value. -/
def Obligations.DecodeEncodeRoundTrip : Prop :=
  ∀ i : Instr, i.wf = true → decode (encode i).1 (encode i).2 = .ok i

/-- Encoding what was decoded gives the same code back: no bit of a code is dropped, and no two codes of a format decode to
one instruction. -/
def Obligations.EncodeDecodeRoundTrip : Prop :=
  ∀ (f : Format) (w : Nat) (i : Instr), decode f w = .ok i → encode i = (f, w)

/-- The decoder of port words reads back every list of records the port can produce (R69, R70). -/
def Obligations.PortTraceRoundTrip : Prop :=
  ∀ rs : List PortRecord, (∀ r ∈ rs, r.wf = true) → decodePortTrace (packTrace rs) = .ok rs

/-- A few words written out from the code tables (R63, R68, R69) decode to their rows. -/
def Obligations.DecodedWords : Prop :=
  decode .phase 0b01001 = .ok .txWait ∧ decode .phase 0b10011 = .ok (.reserved12 1#1)
    ∧ decode .event 0b10 = .ok .edge ∧ decode .port 0x102F7341 = .ok (.portRead 0x2F73#16 0x41#8)
    ∧ decode .port 0x60000055 = .ok (.portFdata 0x55#8) ∧ decode .port 0x31000035 = .error .reservedBits

/-! ### The packet codec -/

/-- The round-trip law (R109), for every admitted configuration; the spec marks the sentence as its own inference from R106,
R108 and R8. -/
def Obligations.ParseBuildRoundTrip : Prop :=
  ∀ (c : Config) (q : SeqNum) (pl : List Byte), pl.length ≤ c.params.pktLenMax - 3 →
    parseRxPacket c.params.rxBufCap (buildTxPacket q pl) = .packet (BitVec.ofNat 8 (3 + pl.length)) q pl

/-- The deframer (R108) on drained bytes: FramingError exactly where the length byte is below 3, above RX_BUF_CAP or above the
count; else the three fields, the sequence big-endian, the bytes after the packet ignored. -/
def Obligations.ParseResult : Prop :=
  ∀ (cap : Nat) (l : Byte) (rest : List Byte),
    ((l.toNat < 3 ∨ cap < l.toNat ∨ rest.length + 1 < l.toNat) →
      parseRxPacket cap (l :: rest) = .framingError l (rest.length + 1))
    ∧ (∀ (hi lo : Byte) (pl tail : List Byte), rest = hi :: lo :: (pl ++ tail) → l.toNat = 3 + pl.length → l.toNat ≤ cap →
      parseRxPacket cap (l :: rest) = .packet l (BitVec.ofNat 16 (hi.toNat * 256 + lo.toNat)) pl)

/-- The classification law (R107, R110 as 90_conflicts.md C1 reads it): Empty for a count of 0 whatever the state register,
else Error exactly where its low five bits are the error code, else Ready. -/
def Obligations.ClassificationLaw : Prop :=
  ∀ (e : BitVec 5) (s n : Byte),
    (n = 0 → classifyRx e s n = .empty)
    ∧ (n ≠ 0 → s.toNat % 32 = e.toNat → classifyRx e s n = .error)
    ∧ (n ≠ 0 → s.toNat % 32 ≠ e.toNat → classifyRx e s n = .ready n)

/-! ### Runs -/

/-- A whole calibration (R103): with the radio's answers `b`, then `us` that are not settled and one that is, the high triple,
`vs` that are not settled and one that is, the mid triple, and no more polls in a run than CAL_POLL_LIMIT, the sequencer's turns
from CAL_BEGIN_HIGH issue exactly R103's records and end at the arm phase of the mode. -/
def Obligations.CalibrationRun : Prop :=
  ∀ (s : State) (b : Byte) (us vs : List Byte) (h m : CalResult) (more : List Byte) (later : List Turn),
    s.mfault = none → s.irqPend = false → s.ph = 0x01#5 →
    (∀ x ∈ us, x ≠ s.par.marcSettled) → (∀ x ∈ vs, x ≠ s.par.marcSettled) →
    (∀ k, s.par.calPollLimit = some k → us.length < k ∧ vs.length < k) →
    s.answers = b :: (us ++ s.par.marcSettled :: h.vco2 :: h.vco4 :: h.chp ::
      (vs ++ s.par.marcSettled :: m.vco2 :: m.vco4 :: m.chp :: more)) →
    s.script = List.replicate (us.length + vs.length + 7) .sequencer ++ later →
    let w := calSelect h m
    let poll (x : Byte) : Record := .port (.read s.par.aMarcState x)
    let snap (c : CalResult) : List Record :=
      [.port (.read s.par.aFsVco2 c.vco2), .port (.read s.par.aFsVco4 c.vco4), .port (.read s.par.aFsChp c.chp)]
    ∃ t : State, core.run (us.length + vs.length + 7) s = .next t
      ∧ t.ph = (if s.par.mode = .tx then 0x08#5 else 0x0C#5)
      ∧ t.calH = some h ∧ t.calM = some m ∧ t.calBase = some b ∧ t.polls = some (vs.length + 1)
      ∧ t.answers = more ∧ t.script = later ∧ t.mfault = none ∧ t.fatal = s.fatal ∧ t.evt = s.evt ∧ t.irqPend = false
      ∧ t.seq = s.seq ∧ t.hb = s.hb ∧ t.rxn = s.rxn ∧ t.cfg = s.cfg
      ∧ t.trace = s.trace
        ++ [.port (.write s.par.aVcoCap 0x00#8), .port (.read s.par.aCalCtrl b),
            .port (.write s.par.aCalCtrl (b + s.par.vcdacStartOffset)), .port (.strobe s.par.cmdScal)]
        ++ us.map poll ++ [poll s.par.marcSettled] ++ snap h
        ++ [.port (.write s.par.aVcoCap 0x00#8), .port (.write s.par.aCalCtrl b), .port (.strobe s.par.cmdScal)]
        ++ vs.map poll ++ [poll s.par.marcSettled] ++ snap m
        ++ [.port (.write s.par.aFsVco2 w.vco2), .port (.write s.par.aFsVco4 w.vco4), .port (.write s.par.aFsChp w.chp), .kick]

/-- A calibration run that never settles (R143, R93): after CAL_POLL_LIMIT reads that do not match, FATAL is set, one
CalTimeout record with the run and the count is emitted, no kick is made, and the sequencer is in HALT. -/
def Obligations.CalibrationTimeoutRun : Prop :=
  ∀ (s : State) (r : CalRun) (k : Nat) (us more : List Byte) (later : List Turn),
    s.mfault = none → s.irqPend = false → s.ph = (match r with | .high => 0x02#5 | .mid => 0x05#5) → s.polls = some 0 →
    s.par.calPollLimit = some k → us.length = k → (∀ x ∈ us, x ≠ s.par.marcSettled) →
    s.answers = us ++ more → s.script = List.replicate k .sequencer ++ later →
    ∃ t : State, core.run k s = .next t ∧ t.ph = 0x11#5 ∧ t.fatal = true ∧ t.polls = some k
      ∧ t.trace = s.trace ++ us.map (fun x => .port (.read s.par.aMarcState x)) ++ [.diag (.calTimeout r k)]

/-- One edge, one service (R119): from a wait with the latch idle, an edge, its interrupt and then any number (at least five)
of sequencer turns make exactly one pass through the service, after which the latch is idle and the sequencer holds in the
same wait: in TX_WAIT one TX_COMPLETE (SEQ and HB), in RX_WAIT one receive service, whatever the radio answers. -/
def Obligations.SingleEdgeSingleService : Prop :=
  ∀ (s : State) (n : Nat) (later : List Turn),
    s.mfault = none → s.evt = false → s.irqPend = false → s.ph = 0x09#5 ∨ s.ph = 0x0D#5 →
    s.script = .event 2#2 :: .event 3#2 :: (List.replicate (5 + n) .sequencer ++ later) →
    ∃ t : State, core.run (7 + n) s = .next t ∧ t.ph = s.ph ∧ t.evt = false ∧ t.irqPend = false ∧ t.mfault = none
      ∧ t.trace.count .kick = s.trace.count .kick + 1 ∧ t.sequencerEnabled = false
      ∧ (s.ph = 0x09#5 → t.seq = s.seq + 1 ∧ t.hb = !s.hb)
      ∧ (s.ph = 0x0D#5 → t.seq = s.seq ∧ t.hb = s.hb)

/-- The latch does not count (R118): any positive number of edges, each with its interrupt, between two clears leaves EVT = 1 once and
changes nothing else but TRACE and the turns. -/
def Obligations.EdgesMergeInLatch : Prop :=
  ∀ (s : State) (k : Nat) (later : List Turn), s.mfault = none → s.irqPend = false →
    s.script = (List.replicate (k + 1) [Turn.event 2#2, Turn.event 3#2]).flatten ++ later →
    core.run (2 * (k + 1)) s = .next
      { s with
        evt := true
        trace := s.trace ++ List.replicate (k + 1) .edge
        script := later
        turn := s.turn + 2 * (k + 1) }

/-- FIFO-error recovery (R132, which the spec marks as its own inference from R129, R131 and R127): after RX_INSPECT gives
Error, the next two sequencer turns flush and re-arm; the flush strobe precedes the RX strobe, and the machine waits again in
RX_WAIT. Stated for three sequencer turns in a row, with no event between. -/
def Obligations.FifoErrorIsRecovered : Prop :=
  ∀ (s : State) (later : List Turn),
    s.mfault = none → s.irqPend = false → s.ph = 0x0E#5 → s.answerAt 0 ≠ 0 →
    (s.answerAt 1).toNat % 32 = s.par.fifoErrCode.toNat →
    s.script = .sequencer :: .sequencer :: .sequencer :: later →
    core.run 3 s = .next
      { s.consume 2 with
        ph := 0x0D#5
        evt := false
        script := later
        turn := s.turn + 3
        trace := s.trace ++
          [.port (.read s.par.aNumRxBytes (s.answerAt 0)), .port (.read s.par.aMarcState (s.answerAt 1)),
           .port (.strobe s.par.cmdSfrx), .diag (.fifoError .statusOverflow), .kick, .port (.strobe s.par.cmdSrx)] }

/-- A draw does not depend on what was written (R83): no register write, strobe, FIFO write or record changes any answer to
come. -/
def Obligations.AnswersIgnoreWrites : Prop :=
  ∀ (s : State) (k : Nat) (a : Addr) (d c : Byte) (bs : List Byte) (w : CalResult) (l : List (Addr × Byte)),
    (portWrite a d s).answerAt k = s.answerAt k ∧ (portStrobe c s).answerAt k = s.answerAt k
      ∧ (portWriteFifo bs s).answerAt k = s.answerAt k ∧ (writeTriple w s).answerAt k = s.answerAt k
      ∧ (writeProfile l s).answerAt k = s.answerAt k

/-- A configuration is admitted exactly where R8's constraints hold; any other is not instantiated. -/
def Obligations.OnlyAdmittedConfigurations : Prop :=
  ∀ p : Params, (∃ c, Config.instantiate p = some c ∧ c.params = p) ↔
    (3 ≤ p.pktLenMax ∧ p.pktLenMax < p.fifoCapacity ∧ p.fifoCapacity ≤ 255
      ∧ p.fifoCapacity ≤ p.rxBufCap ∧ p.rxBufCap ≤ 255
      ∧ p.payload.otherwise.length ≤ p.pktLenMax - 3 ∧ (∀ e ∈ p.payload.listed, e.2.length ≤ p.pktLenMax - 3)
      ∧ ∀ k, p.calPollLimit = some k → 1 ≤ k)

/-- The lost edge (R166): an edge handled between the wait that observes EVT = 1 and the service's clear is absorbed, and leaves
nothing but its Edge record. In the transmit service one TX_COMPLETE follows. In the receive service it is absorbed by each of
the three ends: by RX_INSPECT with a count of 0; by RX_DRAIN or RX_FLUSH, whichever the answers choose and whether the edge
comes before RX_INSPECT or after it, where the machine ends as in the run with no edge; by RX_FLUSH from any state in it. -/
def Obligations.LostEdgeIsAbsorbed : Prop :=
  ∀ (s : State) (later : List Turn), s.mfault = none → s.irqPend = false → s.evt = true →
    (s.ph = 0x09#5 → s.script = [.sequencer, .event 2#2, .event 3#2, .sequencer] ++ later →
      core.run 4 s = .next
        { s with
          ph := 0x0B#5
          evt := false
          hb := !s.hb
          seq := s.seq + 1
          script := later
          turn := s.turn + 4
          trace := s.trace ++ [.edge] })
    ∧ (s.ph = 0x0D#5 → s.answerAt 0 = 0 → s.script = [.sequencer, .event 2#2, .event 3#2, .sequencer] ++ later →
      core.run 4 s = .next
        { s.consume 1 with
          ph := 0x0C#5
          evt := false
          script := later
          turn := s.turn + 4
          trace := s.trace ++ [.edge, .port (.read s.par.aNumRxBytes 0x00#8), .kick] })
    ∧ (s.ph = 0x0D#5 → s.answerAt 0 ≠ 0 →
      (s.script = [.sequencer, .event 2#2, .event 3#2, .sequencer, .sequencer] ++ later
        ∨ s.script = [.sequencer, .sequencer, .event 2#2, .event 3#2, .sequencer] ++ later) →
      ∃ t u : State, core.run 5 s = .next t
        ∧ core.run 3 { s with script := [.sequencer, .sequencer, .sequencer] ++ later } = .next u
        ∧ t.ph = 0x0C#5 ∧ t.evt = false ∧ t.irqPend = false
        ∧ t = { u with turn := u.turn + 2, trace := t.trace }
        ∧ withoutEdges t.trace = withoutEdges u.trace ∧ t.trace.count .edge = u.trace.count .edge + 1)
    ∧ (s.ph = 0x10#5 → s.script = [.event 2#2, .event 3#2, .sequencer] ++ later →
      core.run 3 s = .next
        { s with
          ph := 0x0C#5
          evt := false
          script := later
          turn := s.turn + 3
          trace := s.trace ++
            [.edge, .port (.strobe s.par.cmdSfrx), .diag (.fifoError .statusOverflow), .kick] })

/-- The stale edge (R167): no arm phase clears EVT, so with EVT = 1 at the arm the next wait passes at once, with no edge. -/
def Obligations.StaleEdgePassesWait : Prop :=
  ∀ (s : State) (later : List Turn), s.mfault = none → s.irqPend = false → s.evt = true →
    s.script = .sequencer :: .sequencer :: later →
    (s.ph = 0x08#5 → ∃ t, core.run 2 s = .next t ∧ t.ph = 0x0A#5 ∧ t.evt = true ∧ t.seq = s.seq)
    ∧ (s.ph = 0x0C#5 → ∃ t, core.run 2 s = .next t ∧ t.ph = 0x0E#5 ∧ t.evt = true
        ∧ t.trace = s.trace ++ [.port (.strobe s.par.cmdSrx)])

/-! ### The trace reader's other invalid words, and the receive service -/

/-- The words of a known kind with a bit set where R70 wants 0: exactly those of kind 1 to 6 whose bits 27:24 are not 0, or of
kind 3 to 6 whose bits 23:8 are not 0. A turn that gives one to the trace reader reports its index, or the header's where it
cuts a burst short (log entry 11); an FDATA word reports its own in either place; after an invalid word nothing is read. The
reader is the model's own (log entry 10). -/
def Obligations.MalformedPortWordIsReported : Prop :=
  (∀ w : BitVec 32,
    let kind := (w.extractLsb' 28 4).toNat
    (∃ e, decodePort w = .error e) ↔
      1 ≤ kind ∧ kind ≤ 6 ∧ (w.extractLsb' 24 4 ≠ 0#4 ∨ 3 ≤ kind ∧ w.extractLsb' 8 16 ≠ 0#16))
  ∧ ∀ (s : State) (w : BitVec 32) (e : DecodeError), s.mfault = none → s.pick = .word w → decodePort w = .error e →
    let after : State := { s with script := s.script.tail, turn := s.turn + 1 }
    let reports (k : Nat) : State := { after with reader := { s.reader with invalid := some k } }
    (s.reader.invalid = none → s.reader.burst = none → step s = .next (reports s.reader.index))
    ∧ (∀ b : Burst, s.reader.invalid = none → s.reader.burst = some b →
      step s = .next (reports (if (w.extractLsb' 28 4).toNat = 6 then s.reader.index else b.header)))
    ∧ ∀ k, s.reader.invalid = some k → step s = .next after

/-- A burst that the end of a trace cuts short (R70): after any records, a header of count `n` followed by fewer than `n` FDATA
words and nothing more is invalid, and the index reported is the header's (log entry 11). -/
def Obligations.ShortBurstAtEndIsReported : Prop :=
  ∀ (rs : List PortRecord) (n : Byte) (bs : List Byte), (∀ r ∈ rs, r.wf = true) → bs.length < n.toNat →
    let cut (header : PortWord) : List (BitVec 32) := packTrace rs ++ (header :: bs.map .fdata).map encodePortWord
    decodePortTrace (cut (.rfifo n)) = .error (packTrace rs).length
      ∧ decodePortTrace (cut (.wfifo n)) = .error (packTrace rs).length

/-- The receive law (R137, R133 for MODE = RX, which the spec marks as its own inferences) holds after reset and is kept by
every step; and where a step makes a Kick (but for CAL_APPLY's, before the first service), the records since the last Kick,
that step's among them and edges apart, are exactly one service: one CMD_SRX strobe, one end, one Kick. -/
def Obligations.ReceiveServiceLaw : Prop :=
  (∀ c : Config, (State.resetOf c).ReceiveLaw)
  ∧ (∀ s t : State, s.Inv → s.ReceiveLaw → step s = .next t → t.ReceiveLaw)
  ∧ ∀ s t : State, s.Inv → s.ReceiveLaw → s.par.mode = .rx → s.ph ≠ 0x07#5 → step s = .next t →
    t.trace.count .kick = s.trace.count .kick + 1 →
    ∃ new : List Record, t.trace = s.trace ++ new ∧ OneService s.par (withoutEdges (sinceKick s.trace ++ new))
end

