-- ==== Sys2Proof/Laws/Config.lean ====
section
/-!
SUPPORT. What admission (00_scope.md R8) gives of a configuration, and that every payload of one fits.
-/

namespace Sys2Proof.Machine

/-- The capacities of an admitted configuration (R8 (a), (b), (c)). -/
theorem config_capacities (c : Config) :
    3 ≤ c.params.pktLenMax ∧ c.params.pktLenMax < c.params.fifoCapacity ∧ c.params.fifoCapacity ≤ c.params.rxBufCap
      ∧ c.params.rxBufCap ≤ 255 := by
  have h := c.ok
  simp only [Params.admitted, Bool.and_eq_true, decide_eq_true_eq] at h
  omega

/-- The poll bound of an admitted configuration is positive (R8 (f)). -/
theorem config_pollLimit_pos (c : Config) {k : Nat} (hk : c.params.calPollLimit = some k) : 0 < k := by
  have h := c.ok
  simp only [Params.admitted, Bool.and_eq_true] at h
  have := h.2
  rw [hk] at this
  rcases Nat.eq_zero_or_pos k with rfl | hpos
  · simp at this
  · exact hpos

/-- Every payload leaves room for the length byte and the sequence bytes (R8 (d)). -/
theorem payloadOf_length (c : Config) (q : SeqNum) : (payloadOf c.params q).length ≤ c.params.pktLenMax - 3 := by
  have h := c.ok
  simp only [Params.admitted, PayloadTable.fits, Bool.and_eq_true, decide_eq_true_eq, List.all_eq_true] at h
  unfold payloadOf
  split
  · rename_i e he
    exact h.1.2.2 e (List.mem_of_find?_eq_some he)
  · exact h.1.2.1

end Sys2Proof.Machine
end

