-- ==== Sys2Proof/Laws/Decode.lean ====
section
/-!
SUPPORT. The PHASE and EVENT code maps (30_encoding.md R63, R68) as rewrite rules, and the round trip of an encoded phase.
-/

namespace Sys2Proof

@[simp] theorem decodePhase_config : decodePhase 0x00#5 = .config := rfl

@[simp] theorem decodePhase_calBeginHigh : decodePhase 0x01#5 = .calBeginHigh := rfl

@[simp] theorem decodePhase_calPollHigh : decodePhase 0x02#5 = .calPollHigh := rfl

@[simp] theorem decodePhase_calSnapHigh : decodePhase 0x03#5 = .calSnapHigh := rfl

@[simp] theorem decodePhase_calBeginMid : decodePhase 0x04#5 = .calBeginMid := rfl

@[simp] theorem decodePhase_calPollMid : decodePhase 0x05#5 = .calPollMid := rfl

@[simp] theorem decodePhase_calSnapMid : decodePhase 0x06#5 = .calSnapMid := rfl

@[simp] theorem decodePhase_calApply : decodePhase 0x07#5 = .calApply := rfl

@[simp] theorem decodePhase_txArm : decodePhase 0x08#5 = .txArm := rfl

@[simp] theorem decodePhase_txWait : decodePhase 0x09#5 = .txWait := rfl

@[simp] theorem decodePhase_txComplete : decodePhase 0x0A#5 = .txComplete := rfl

@[simp] theorem decodePhase_txDelay : decodePhase 0x0B#5 = .txDelay := rfl

@[simp] theorem decodePhase_rxArm : decodePhase 0x0C#5 = .rxArm := rfl

@[simp] theorem decodePhase_rxWait : decodePhase 0x0D#5 = .rxWait := rfl

@[simp] theorem decodePhase_rxInspect : decodePhase 0x0E#5 = .rxInspect := rfl

@[simp] theorem decodePhase_rxDrain : decodePhase 0x0F#5 = .rxDrain := rfl

@[simp] theorem decodePhase_rxFlush : decodePhase 0x10#5 = .rxFlush := rfl

@[simp] theorem decodePhase_halt : decodePhase 0x11#5 = .halt := rfl

@[simp] theorem decodeEvent_resetPor : decodeEvent 0#2 = .resetPor := rfl

@[simp] theorem decodeEvent_resetWdt : decodeEvent 1#2 = .resetWdt := rfl

@[simp] theorem decodeEvent_edge : decodeEvent 2#2 = .edge := rfl

@[simp] theorem decodeEvent_isr : decodeEvent 3#2 = .isr := rfl

/-- A reserved code decodes to the row that holds its open bits (R64). -/
theorem decodePhase_reserved : ∀ c : BitVec 5, 0x12 ≤ c.toNat →
    (∃ l, decodePhase c = .reserved12 l ∧ 0b1001#4 ++ l = c) ∨ (∃ l, decodePhase c = .reserved14 l ∧ 0b101#3 ++ l = c)
      ∨ ∃ l, decodePhase c = .reserved18 l ∧ 0b11#2 ++ l = c := by
  decide

/-- Every phase code is encoded back. -/
theorem encode_decodePhase : ∀ c : BitVec 5, encode (decodePhase c) = (.phase, c.toNat) := by
  decide

/-- Every event code is encoded back. -/
theorem encode_decodeEvent : ∀ e : BitVec 2, encode (decodeEvent e) = (.event, e.toNat) := by
  decide

/-- A number of 32 bits is decoded as a port word; the width check is passed. -/
theorem decode_port (w : BitVec 32) : decode .port w.toNat = decodePort w := by
  have h : ¬ 2 ^ Format.port.width ≤ w.toNat := Nat.not_le.mpr w.isLt
  simp only [decode, if_neg h, BitVec.ofNat_toNat, BitVec.setWidth_eq]

/-- A number of 5 bits is decoded as a phase code. -/
theorem decode_phase (c : BitVec 5) : decode .phase c.toNat = .ok (decodePhase c) := by
  have h : ¬ 2 ^ Format.phase.width ≤ c.toNat := Nat.not_le.mpr c.isLt
  simp only [decode, if_neg h, BitVec.ofNat_toNat, BitVec.setWidth_eq]

/-- A number of 2 bits is decoded as an event code. -/
theorem decode_event (e : BitVec 2) : decode .event e.toNat = .ok (decodeEvent e) := by
  have h : ¬ 2 ^ Format.event.width ≤ e.toNat := Nat.not_le.mpr e.isLt
  simp only [decode, if_neg h, BitVec.ofNat_toNat, BitVec.setWidth_eq]

/-- A number that a format decodes is the code of a bit vector of the format's width. -/
theorem decode_ok_lt {f : Format} {w : Nat} {i : Instr} (h : decode f w = .ok i) : w < 2 ^ f.width := by
  by_cases hw : 2 ^ f.width ≤ w
  · simp [decode, hw] at h
  · exact Nat.not_le.mp hw

end Sys2Proof
end

