-- ==== Sys2Proof/Laws/State.lean ====
section
/-!
SUPPORT. One lemma per field per named update of State, each true by unfolding; and the normal forms of the primitives, which
are all `record`.
-/

namespace Sys2Proof.Machine

@[simp] theorem portWrite_eq (a : Addr) (d : Byte) (s : State) : portWrite a d s = s.record (.port (.write a d)) := rfl

@[simp] theorem portStrobe_eq (c : Byte) (s : State) : portStrobe c s = s.record (.port (.strobe c)) := rfl

@[simp] theorem portWriteFifo_eq (bs : List Byte) (s : State) : portWriteFifo bs s = s.record (.port (.writeFifo bs)) := rfl

@[simp] theorem emitDiag_eq (d : Diag) (s : State) : emitDiag d s = s.record (.diag d) := rfl

@[simp] theorem kick_eq (s : State) : kick s = s.record .kick := rfl

@[simp] theorem interPacketDelay_eq (s : State) : interPacketDelay s = s := rfl

@[simp] theorem hold_eq (s : State) : hold s = s := rfl

@[simp] theorem State.consume_cfg (s : State) (k : Nat) : (s.consume k).cfg = s.cfg := rfl

@[simp] theorem State.consume_ph (s : State) (k : Nat) : (s.consume k).ph = s.ph := rfl

@[simp] theorem State.consume_evt (s : State) (k : Nat) : (s.consume k).evt = s.evt := rfl

@[simp] theorem State.consume_irqPend (s : State) (k : Nat) : (s.consume k).irqPend = s.irqPend := rfl

@[simp] theorem State.consume_seq (s : State) (k : Nat) : (s.consume k).seq = s.seq := rfl

@[simp] theorem State.consume_hb (s : State) (k : Nat) : (s.consume k).hb = s.hb := rfl

@[simp] theorem State.consume_fatal (s : State) (k : Nat) : (s.consume k).fatal = s.fatal := rfl

@[simp] theorem State.consume_calBase (s : State) (k : Nat) : (s.consume k).calBase = s.calBase := rfl

@[simp] theorem State.consume_calH (s : State) (k : Nat) : (s.consume k).calH = s.calH := rfl

@[simp] theorem State.consume_calM (s : State) (k : Nat) : (s.consume k).calM = s.calM := rfl

@[simp] theorem State.consume_polls (s : State) (k : Nat) : (s.consume k).polls = s.polls := rfl

@[simp] theorem State.consume_rxn (s : State) (k : Nat) : (s.consume k).rxn = s.rxn := rfl

@[simp] theorem State.consume_mfault (s : State) (k : Nat) : (s.consume k).mfault = s.mfault := rfl

@[simp] theorem State.consume_trace (s : State) (k : Nat) : (s.consume k).trace = s.trace := rfl

@[simp] theorem State.consume_script (s : State) (k : Nat) : (s.consume k).script = s.script := rfl

@[simp] theorem State.consume_turn (s : State) (k : Nat) : (s.consume k).turn = s.turn := rfl

@[simp] theorem State.consume_answers (s : State) (k : Nat) : (s.consume k).answers = s.answers.drop k := rfl

@[simp] theorem State.consume_draws (s : State) (k : Nat) : (s.consume k).draws = s.draws + k := rfl

@[simp] theorem State.consume_reader (s : State) (k : Nat) : (s.consume k).reader = s.reader := rfl

@[simp] theorem State.record_cfg (s : State) (r : Record) : (s.record r).cfg = s.cfg := rfl

@[simp] theorem State.record_ph (s : State) (r : Record) : (s.record r).ph = s.ph := rfl

@[simp] theorem State.record_evt (s : State) (r : Record) : (s.record r).evt = s.evt := rfl

@[simp] theorem State.record_irqPend (s : State) (r : Record) : (s.record r).irqPend = s.irqPend := rfl

@[simp] theorem State.record_seq (s : State) (r : Record) : (s.record r).seq = s.seq := rfl

@[simp] theorem State.record_hb (s : State) (r : Record) : (s.record r).hb = s.hb := rfl

@[simp] theorem State.record_fatal (s : State) (r : Record) : (s.record r).fatal = s.fatal := rfl

@[simp] theorem State.record_calBase (s : State) (r : Record) : (s.record r).calBase = s.calBase := rfl

@[simp] theorem State.record_calH (s : State) (r : Record) : (s.record r).calH = s.calH := rfl

@[simp] theorem State.record_calM (s : State) (r : Record) : (s.record r).calM = s.calM := rfl

@[simp] theorem State.record_polls (s : State) (r : Record) : (s.record r).polls = s.polls := rfl

@[simp] theorem State.record_rxn (s : State) (r : Record) : (s.record r).rxn = s.rxn := rfl

@[simp] theorem State.record_mfault (s : State) (r : Record) : (s.record r).mfault = s.mfault := rfl

@[simp] theorem State.record_trace (s : State) (r : Record) : (s.record r).trace = s.trace ++ [r] := rfl

@[simp] theorem State.record_script (s : State) (r : Record) : (s.record r).script = s.script := rfl

@[simp] theorem State.record_turn (s : State) (r : Record) : (s.record r).turn = s.turn := rfl

@[simp] theorem State.record_answers (s : State) (r : Record) : (s.record r).answers = s.answers := rfl

@[simp] theorem State.record_draws (s : State) (r : Record) : (s.record r).draws = s.draws := rfl

@[simp] theorem State.record_reader (s : State) (r : Record) : (s.record r).reader = s.reader := rfl

@[simp] theorem State.toPhase_cfg (s : State) (c : BitVec 5) : (s.toPhase c).cfg = s.cfg := rfl

@[simp] theorem State.toPhase_ph (s : State) (c : BitVec 5) : (s.toPhase c).ph = c := rfl

@[simp] theorem State.toPhase_evt (s : State) (c : BitVec 5) : (s.toPhase c).evt = s.evt := rfl

@[simp] theorem State.toPhase_irqPend (s : State) (c : BitVec 5) : (s.toPhase c).irqPend = s.irqPend := rfl

@[simp] theorem State.toPhase_seq (s : State) (c : BitVec 5) : (s.toPhase c).seq = s.seq := rfl

@[simp] theorem State.toPhase_hb (s : State) (c : BitVec 5) : (s.toPhase c).hb = s.hb := rfl

@[simp] theorem State.toPhase_fatal (s : State) (c : BitVec 5) : (s.toPhase c).fatal = s.fatal := rfl

@[simp] theorem State.toPhase_calBase (s : State) (c : BitVec 5) : (s.toPhase c).calBase = s.calBase := rfl

@[simp] theorem State.toPhase_calH (s : State) (c : BitVec 5) : (s.toPhase c).calH = s.calH := rfl

@[simp] theorem State.toPhase_calM (s : State) (c : BitVec 5) : (s.toPhase c).calM = s.calM := rfl

@[simp] theorem State.toPhase_polls (s : State) (c : BitVec 5) : (s.toPhase c).polls = s.polls := rfl

@[simp] theorem State.toPhase_rxn (s : State) (c : BitVec 5) : (s.toPhase c).rxn = s.rxn := rfl

@[simp] theorem State.toPhase_mfault (s : State) (c : BitVec 5) : (s.toPhase c).mfault = s.mfault := rfl

@[simp] theorem State.toPhase_trace (s : State) (c : BitVec 5) : (s.toPhase c).trace = s.trace := rfl

@[simp] theorem State.toPhase_script (s : State) (c : BitVec 5) : (s.toPhase c).script = s.script := rfl

@[simp] theorem State.toPhase_turn (s : State) (c : BitVec 5) : (s.toPhase c).turn = s.turn := rfl

@[simp] theorem State.toPhase_answers (s : State) (c : BitVec 5) : (s.toPhase c).answers = s.answers := rfl

@[simp] theorem State.toPhase_draws (s : State) (c : BitVec 5) : (s.toPhase c).draws = s.draws := rfl

@[simp] theorem State.toPhase_reader (s : State) (c : BitVec 5) : (s.toPhase c).reader = s.reader := rfl

@[simp] theorem clearEvt_cfg (s : State) : (clearEvt s).cfg = s.cfg := rfl

@[simp] theorem clearEvt_ph (s : State) : (clearEvt s).ph = s.ph := rfl

@[simp] theorem clearEvt_evt (s : State) : (clearEvt s).evt = false := rfl

@[simp] theorem clearEvt_irqPend (s : State) : (clearEvt s).irqPend = s.irqPend := rfl

@[simp] theorem clearEvt_seq (s : State) : (clearEvt s).seq = s.seq := rfl

@[simp] theorem clearEvt_hb (s : State) : (clearEvt s).hb = s.hb := rfl

@[simp] theorem clearEvt_fatal (s : State) : (clearEvt s).fatal = s.fatal := rfl

@[simp] theorem clearEvt_calBase (s : State) : (clearEvt s).calBase = s.calBase := rfl

@[simp] theorem clearEvt_calH (s : State) : (clearEvt s).calH = s.calH := rfl

@[simp] theorem clearEvt_calM (s : State) : (clearEvt s).calM = s.calM := rfl

@[simp] theorem clearEvt_polls (s : State) : (clearEvt s).polls = s.polls := rfl

@[simp] theorem clearEvt_rxn (s : State) : (clearEvt s).rxn = s.rxn := rfl

@[simp] theorem clearEvt_mfault (s : State) : (clearEvt s).mfault = s.mfault := rfl

@[simp] theorem clearEvt_trace (s : State) : (clearEvt s).trace = s.trace := rfl

@[simp] theorem clearEvt_script (s : State) : (clearEvt s).script = s.script := rfl

@[simp] theorem clearEvt_turn (s : State) : (clearEvt s).turn = s.turn := rfl

@[simp] theorem clearEvt_answers (s : State) : (clearEvt s).answers = s.answers := rfl

@[simp] theorem clearEvt_draws (s : State) : (clearEvt s).draws = s.draws := rfl

@[simp] theorem clearEvt_reader (s : State) : (clearEvt s).reader = s.reader := rfl

@[simp] theorem takeInterrupt_cfg (s : State) : (takeInterrupt s).cfg = s.cfg := rfl

@[simp] theorem takeInterrupt_ph (s : State) : (takeInterrupt s).ph = s.ph := rfl

@[simp] theorem takeInterrupt_evt (s : State) : (takeInterrupt s).evt = true := rfl

@[simp] theorem takeInterrupt_irqPend (s : State) : (takeInterrupt s).irqPend = false := rfl

@[simp] theorem takeInterrupt_seq (s : State) : (takeInterrupt s).seq = s.seq := rfl

@[simp] theorem takeInterrupt_hb (s : State) : (takeInterrupt s).hb = s.hb := rfl

@[simp] theorem takeInterrupt_fatal (s : State) : (takeInterrupt s).fatal = s.fatal := rfl

@[simp] theorem takeInterrupt_calBase (s : State) : (takeInterrupt s).calBase = s.calBase := rfl

@[simp] theorem takeInterrupt_calH (s : State) : (takeInterrupt s).calH = s.calH := rfl

@[simp] theorem takeInterrupt_calM (s : State) : (takeInterrupt s).calM = s.calM := rfl

@[simp] theorem takeInterrupt_polls (s : State) : (takeInterrupt s).polls = s.polls := rfl

@[simp] theorem takeInterrupt_rxn (s : State) : (takeInterrupt s).rxn = s.rxn := rfl

@[simp] theorem takeInterrupt_mfault (s : State) : (takeInterrupt s).mfault = s.mfault := rfl

@[simp] theorem takeInterrupt_trace (s : State) : (takeInterrupt s).trace = s.trace := rfl

@[simp] theorem takeInterrupt_script (s : State) : (takeInterrupt s).script = s.script := rfl

@[simp] theorem takeInterrupt_turn (s : State) : (takeInterrupt s).turn = s.turn := rfl

@[simp] theorem takeInterrupt_answers (s : State) : (takeInterrupt s).answers = s.answers := rfl

@[simp] theorem takeInterrupt_draws (s : State) : (takeInterrupt s).draws = s.draws := rfl

@[simp] theorem takeInterrupt_reader (s : State) : (takeInterrupt s).reader = s.reader := rfl

@[simp] theorem signalEdge_cfg (s : State) : (signalEdge s).cfg = s.cfg := rfl

@[simp] theorem signalEdge_ph (s : State) : (signalEdge s).ph = s.ph := rfl

@[simp] theorem signalEdge_evt (s : State) : (signalEdge s).evt = s.evt := rfl

@[simp] theorem signalEdge_irqPend (s : State) : (signalEdge s).irqPend = true := rfl

@[simp] theorem signalEdge_seq (s : State) : (signalEdge s).seq = s.seq := rfl

@[simp] theorem signalEdge_hb (s : State) : (signalEdge s).hb = s.hb := rfl

@[simp] theorem signalEdge_fatal (s : State) : (signalEdge s).fatal = s.fatal := rfl

@[simp] theorem signalEdge_calBase (s : State) : (signalEdge s).calBase = s.calBase := rfl

@[simp] theorem signalEdge_calH (s : State) : (signalEdge s).calH = s.calH := rfl

@[simp] theorem signalEdge_calM (s : State) : (signalEdge s).calM = s.calM := rfl

@[simp] theorem signalEdge_polls (s : State) : (signalEdge s).polls = s.polls := rfl

@[simp] theorem signalEdge_rxn (s : State) : (signalEdge s).rxn = s.rxn := rfl

@[simp] theorem signalEdge_mfault (s : State) : (signalEdge s).mfault = s.mfault := rfl

@[simp] theorem signalEdge_trace (s : State) : (signalEdge s).trace = s.trace ++ [.edge] := rfl

@[simp] theorem signalEdge_script (s : State) : (signalEdge s).script = s.script := rfl

@[simp] theorem signalEdge_turn (s : State) : (signalEdge s).turn = s.turn := rfl

@[simp] theorem signalEdge_answers (s : State) : (signalEdge s).answers = s.answers := rfl

@[simp] theorem signalEdge_draws (s : State) : (signalEdge s).draws = s.draws := rfl

@[simp] theorem signalEdge_reader (s : State) : (signalEdge s).reader = s.reader := rfl

@[simp] theorem raiseModelFault_cfg (s : State) (r : ModelFault) : (raiseModelFault r s).cfg = s.cfg := rfl

@[simp] theorem raiseModelFault_ph (s : State) (r : ModelFault) : (raiseModelFault r s).ph = s.ph := rfl

@[simp] theorem raiseModelFault_evt (s : State) (r : ModelFault) : (raiseModelFault r s).evt = s.evt := rfl

@[simp] theorem raiseModelFault_irqPend (s : State) (r : ModelFault) : (raiseModelFault r s).irqPend = s.irqPend := rfl

@[simp] theorem raiseModelFault_seq (s : State) (r : ModelFault) : (raiseModelFault r s).seq = s.seq := rfl

@[simp] theorem raiseModelFault_hb (s : State) (r : ModelFault) : (raiseModelFault r s).hb = s.hb := rfl

@[simp] theorem raiseModelFault_fatal (s : State) (r : ModelFault) : (raiseModelFault r s).fatal = s.fatal := rfl

@[simp] theorem raiseModelFault_calBase (s : State) (r : ModelFault) : (raiseModelFault r s).calBase = s.calBase := rfl

@[simp] theorem raiseModelFault_calH (s : State) (r : ModelFault) : (raiseModelFault r s).calH = s.calH := rfl

@[simp] theorem raiseModelFault_calM (s : State) (r : ModelFault) : (raiseModelFault r s).calM = s.calM := rfl

@[simp] theorem raiseModelFault_polls (s : State) (r : ModelFault) : (raiseModelFault r s).polls = s.polls := rfl

@[simp] theorem raiseModelFault_rxn (s : State) (r : ModelFault) : (raiseModelFault r s).rxn = s.rxn := rfl

@[simp] theorem raiseModelFault_mfault (s : State) (r : ModelFault) : (raiseModelFault r s).mfault = some r := rfl

@[simp] theorem raiseModelFault_trace (s : State) (r : ModelFault) : (raiseModelFault r s).trace = s.trace := rfl

@[simp] theorem raiseModelFault_script (s : State) (r : ModelFault) : (raiseModelFault r s).script = s.script := rfl

@[simp] theorem raiseModelFault_turn (s : State) (r : ModelFault) : (raiseModelFault r s).turn = s.turn := rfl

@[simp] theorem raiseModelFault_answers (s : State) (r : ModelFault) : (raiseModelFault r s).answers = s.answers := rfl

@[simp] theorem raiseModelFault_draws (s : State) (r : ModelFault) : (raiseModelFault r s).draws = s.draws := rfl

@[simp] theorem raiseModelFault_reader (s : State) (r : ModelFault) : (raiseModelFault r s).reader = s.reader := rfl

@[simp] theorem raiseCalTimeout_cfg (s : State) (run : CalRun) (n : Nat) : (raiseCalTimeout run n s).cfg = s.cfg := rfl

@[simp] theorem raiseCalTimeout_ph (s : State) (run : CalRun) (n : Nat) : (raiseCalTimeout run n s).ph = Phase.halt := rfl

@[simp] theorem raiseCalTimeout_evt (s : State) (run : CalRun) (n : Nat) : (raiseCalTimeout run n s).evt = s.evt := rfl

@[simp] theorem raiseCalTimeout_irqPend (s : State) (run : CalRun) (n : Nat) : (raiseCalTimeout run n s).irqPend = s.irqPend := rfl

@[simp] theorem raiseCalTimeout_seq (s : State) (run : CalRun) (n : Nat) : (raiseCalTimeout run n s).seq = s.seq := rfl

@[simp] theorem raiseCalTimeout_hb (s : State) (run : CalRun) (n : Nat) : (raiseCalTimeout run n s).hb = s.hb := rfl

@[simp] theorem raiseCalTimeout_fatal (s : State) (run : CalRun) (n : Nat) : (raiseCalTimeout run n s).fatal = true := rfl

@[simp] theorem raiseCalTimeout_calBase (s : State) (run : CalRun) (n : Nat) : (raiseCalTimeout run n s).calBase = s.calBase := rfl

@[simp] theorem raiseCalTimeout_calH (s : State) (run : CalRun) (n : Nat) : (raiseCalTimeout run n s).calH = s.calH := rfl

@[simp] theorem raiseCalTimeout_calM (s : State) (run : CalRun) (n : Nat) : (raiseCalTimeout run n s).calM = s.calM := rfl

@[simp] theorem raiseCalTimeout_polls (s : State) (run : CalRun) (n : Nat) : (raiseCalTimeout run n s).polls = s.polls := rfl

@[simp] theorem raiseCalTimeout_rxn (s : State) (run : CalRun) (n : Nat) : (raiseCalTimeout run n s).rxn = s.rxn := rfl

@[simp] theorem raiseCalTimeout_mfault (s : State) (run : CalRun) (n : Nat) : (raiseCalTimeout run n s).mfault = s.mfault := rfl

@[simp] theorem raiseCalTimeout_trace (s : State) (run : CalRun) (n : Nat) : (raiseCalTimeout run n s).trace = s.trace ++ [.diag (.calTimeout run n)] := rfl

@[simp] theorem raiseCalTimeout_script (s : State) (run : CalRun) (n : Nat) : (raiseCalTimeout run n s).script = s.script := rfl

@[simp] theorem raiseCalTimeout_turn (s : State) (run : CalRun) (n : Nat) : (raiseCalTimeout run n s).turn = s.turn := rfl

@[simp] theorem raiseCalTimeout_answers (s : State) (run : CalRun) (n : Nat) : (raiseCalTimeout run n s).answers = s.answers := rfl

@[simp] theorem raiseCalTimeout_draws (s : State) (run : CalRun) (n : Nat) : (raiseCalTimeout run n s).draws = s.draws := rfl

@[simp] theorem raiseCalTimeout_reader (s : State) (run : CalRun) (n : Nat) : (raiseCalTimeout run n s).reader = s.reader := rfl

@[simp] theorem applyReset_cfg (s : State) (c : ResetCause) : (applyReset c s).cfg = s.cfg := rfl

@[simp] theorem applyReset_ph (s : State) (c : ResetCause) : (applyReset c s).ph = Phase.config := rfl

@[simp] theorem applyReset_evt (s : State) (c : ResetCause) : (applyReset c s).evt = false := rfl

@[simp] theorem applyReset_irqPend (s : State) (c : ResetCause) : (applyReset c s).irqPend = false := rfl

@[simp] theorem applyReset_seq (s : State) (c : ResetCause) : (applyReset c s).seq = 0x0001#16 := rfl

@[simp] theorem applyReset_hb (s : State) (c : ResetCause) : (applyReset c s).hb = false := rfl

@[simp] theorem applyReset_fatal (s : State) (c : ResetCause) : (applyReset c s).fatal = false := rfl

@[simp] theorem applyReset_calBase (s : State) (c : ResetCause) : (applyReset c s).calBase = none := rfl

@[simp] theorem applyReset_calH (s : State) (c : ResetCause) : (applyReset c s).calH = none := rfl

@[simp] theorem applyReset_calM (s : State) (c : ResetCause) : (applyReset c s).calM = none := rfl

@[simp] theorem applyReset_polls (s : State) (c : ResetCause) : (applyReset c s).polls = none := rfl

@[simp] theorem applyReset_rxn (s : State) (c : ResetCause) : (applyReset c s).rxn = none := rfl

@[simp] theorem applyReset_mfault (s : State) (c : ResetCause) : (applyReset c s).mfault = s.mfault := rfl

@[simp] theorem applyReset_trace (s : State) (c : ResetCause) : (applyReset c s).trace = s.trace ++ [.reset c] := rfl

@[simp] theorem applyReset_script (s : State) (c : ResetCause) : (applyReset c s).script = s.script := rfl

@[simp] theorem applyReset_turn (s : State) (c : ResetCause) : (applyReset c s).turn = s.turn := rfl

@[simp] theorem applyReset_answers (s : State) (c : ResetCause) : (applyReset c s).answers = s.answers := rfl

@[simp] theorem applyReset_draws (s : State) (c : ResetCause) : (applyReset c s).draws = s.draws := rfl

@[simp] theorem applyReset_reader (s : State) (c : ResetCause) : (applyReset c s).reader = s.reader := rfl

@[simp] theorem State.endTurn_cfg (s : State) : (s.endTurn).cfg = s.cfg := rfl

@[simp] theorem State.endTurn_ph (s : State) : (s.endTurn).ph = s.ph := rfl

@[simp] theorem State.endTurn_evt (s : State) : (s.endTurn).evt = s.evt := rfl

@[simp] theorem State.endTurn_irqPend (s : State) : (s.endTurn).irqPend = s.irqPend := rfl

@[simp] theorem State.endTurn_seq (s : State) : (s.endTurn).seq = s.seq := rfl

@[simp] theorem State.endTurn_hb (s : State) : (s.endTurn).hb = s.hb := rfl

@[simp] theorem State.endTurn_fatal (s : State) : (s.endTurn).fatal = s.fatal := rfl

@[simp] theorem State.endTurn_calBase (s : State) : (s.endTurn).calBase = s.calBase := rfl

@[simp] theorem State.endTurn_calH (s : State) : (s.endTurn).calH = s.calH := rfl

@[simp] theorem State.endTurn_calM (s : State) : (s.endTurn).calM = s.calM := rfl

@[simp] theorem State.endTurn_polls (s : State) : (s.endTurn).polls = s.polls := rfl

@[simp] theorem State.endTurn_rxn (s : State) : (s.endTurn).rxn = s.rxn := rfl

@[simp] theorem State.endTurn_mfault (s : State) : (s.endTurn).mfault = s.mfault := rfl

@[simp] theorem State.endTurn_trace (s : State) : (s.endTurn).trace = s.trace := rfl

@[simp] theorem State.endTurn_script (s : State) : (s.endTurn).script = s.script.tail := rfl

@[simp] theorem State.endTurn_turn (s : State) : (s.endTurn).turn = s.turn + 1 := rfl

@[simp] theorem State.endTurn_answers (s : State) : (s.endTurn).answers = s.answers := rfl

@[simp] theorem State.endTurn_draws (s : State) : (s.endTurn).draws = s.draws := rfl

@[simp] theorem State.endTurn_reader (s : State) : (s.endTurn).reader = s.reader := rfl

@[simp] theorem State.readPortWord_cfg (s : State) (p : PortWord) : (s.readPortWord p).cfg = s.cfg := rfl

@[simp] theorem State.readPortWord_ph (s : State) (p : PortWord) : (s.readPortWord p).ph = s.ph := rfl

@[simp] theorem State.readPortWord_evt (s : State) (p : PortWord) : (s.readPortWord p).evt = s.evt := rfl

@[simp] theorem State.readPortWord_irqPend (s : State) (p : PortWord) : (s.readPortWord p).irqPend = s.irqPend := rfl

@[simp] theorem State.readPortWord_seq (s : State) (p : PortWord) : (s.readPortWord p).seq = s.seq := rfl

@[simp] theorem State.readPortWord_hb (s : State) (p : PortWord) : (s.readPortWord p).hb = s.hb := rfl

@[simp] theorem State.readPortWord_fatal (s : State) (p : PortWord) : (s.readPortWord p).fatal = s.fatal := rfl

@[simp] theorem State.readPortWord_calBase (s : State) (p : PortWord) : (s.readPortWord p).calBase = s.calBase := rfl

@[simp] theorem State.readPortWord_calH (s : State) (p : PortWord) : (s.readPortWord p).calH = s.calH := rfl

@[simp] theorem State.readPortWord_calM (s : State) (p : PortWord) : (s.readPortWord p).calM = s.calM := rfl

@[simp] theorem State.readPortWord_polls (s : State) (p : PortWord) : (s.readPortWord p).polls = s.polls := rfl

@[simp] theorem State.readPortWord_rxn (s : State) (p : PortWord) : (s.readPortWord p).rxn = s.rxn := rfl

@[simp] theorem State.readPortWord_mfault (s : State) (p : PortWord) : (s.readPortWord p).mfault = s.mfault := rfl

@[simp] theorem State.readPortWord_trace (s : State) (p : PortWord) : (s.readPortWord p).trace = s.trace := rfl

@[simp] theorem State.readPortWord_script (s : State) (p : PortWord) : (s.readPortWord p).script = s.script := rfl

@[simp] theorem State.readPortWord_turn (s : State) (p : PortWord) : (s.readPortWord p).turn = s.turn := rfl

@[simp] theorem State.readPortWord_answers (s : State) (p : PortWord) : (s.readPortWord p).answers = s.answers := rfl

@[simp] theorem State.readPortWord_draws (s : State) (p : PortWord) : (s.readPortWord p).draws = s.draws := rfl

@[simp] theorem State.readPortWord_reader (s : State) (p : PortWord) : (s.readPortWord p).reader = s.reader.feed p := rfl

@[simp] theorem State.readMalformed_cfg (s : State) (w : BitVec 32) : (s.readMalformed w).cfg = s.cfg := rfl

@[simp] theorem State.readMalformed_ph (s : State) (w : BitVec 32) : (s.readMalformed w).ph = s.ph := rfl

@[simp] theorem State.readMalformed_evt (s : State) (w : BitVec 32) : (s.readMalformed w).evt = s.evt := rfl

@[simp] theorem State.readMalformed_irqPend (s : State) (w : BitVec 32) : (s.readMalformed w).irqPend = s.irqPend := rfl

@[simp] theorem State.readMalformed_seq (s : State) (w : BitVec 32) : (s.readMalformed w).seq = s.seq := rfl

@[simp] theorem State.readMalformed_hb (s : State) (w : BitVec 32) : (s.readMalformed w).hb = s.hb := rfl

@[simp] theorem State.readMalformed_fatal (s : State) (w : BitVec 32) : (s.readMalformed w).fatal = s.fatal := rfl

@[simp] theorem State.readMalformed_calBase (s : State) (w : BitVec 32) : (s.readMalformed w).calBase = s.calBase := rfl

@[simp] theorem State.readMalformed_calH (s : State) (w : BitVec 32) : (s.readMalformed w).calH = s.calH := rfl

@[simp] theorem State.readMalformed_calM (s : State) (w : BitVec 32) : (s.readMalformed w).calM = s.calM := rfl

@[simp] theorem State.readMalformed_polls (s : State) (w : BitVec 32) : (s.readMalformed w).polls = s.polls := rfl

@[simp] theorem State.readMalformed_rxn (s : State) (w : BitVec 32) : (s.readMalformed w).rxn = s.rxn := rfl

@[simp] theorem State.readMalformed_mfault (s : State) (w : BitVec 32) : (s.readMalformed w).mfault = s.mfault := rfl

@[simp] theorem State.readMalformed_trace (s : State) (w : BitVec 32) : (s.readMalformed w).trace = s.trace := rfl

@[simp] theorem State.readMalformed_script (s : State) (w : BitVec 32) : (s.readMalformed w).script = s.script := rfl

@[simp] theorem State.readMalformed_turn (s : State) (w : BitVec 32) : (s.readMalformed w).turn = s.turn := rfl

@[simp] theorem State.readMalformed_answers (s : State) (w : BitVec 32) : (s.readMalformed w).answers = s.answers := rfl

@[simp] theorem State.readMalformed_draws (s : State) (w : BitVec 32) : (s.readMalformed w).draws = s.draws := rfl

@[simp] theorem State.readMalformed_reader (s : State) (w : BitVec 32) : (s.readMalformed w).reader = s.reader.malformed w := rfl

end Sys2Proof.Machine
end

