-- ==== Sys2Proof/Laws/Ops.lean ====
section
/-!
SUPPORT. One lemma per shared operation that says once everything it can do; the provers cite these instead of unfolding.
-/

namespace Sys2Proof.Machine

/-! ### Draws and port reads -/

/-- After `j` draws the `k`-th answer is the `j + k`-th. -/
@[simp] theorem answerAt_consume (s : State) (j k : Nat) : (s.consume j).answerAt k = s.answerAt (j + k) := by
  simp [State.answerAt, List.getElem?_drop, Nat.add_assoc]

@[simp] theorem answerAt_record (s : State) (r : Record) (k : Nat) : (s.record r).answerAt k = s.answerAt k := rfl

/-- Draws add up. -/
@[simp] theorem consume_consume (s : State) (j k : Nat) : (s.consume j).consume k = s.consume (j + k) := by
  simp [State.consume, Nat.add_assoc]

theorem record_consume (s : State) (r : Record) (k : Nat) : (s.record r).consume k = (s.consume k).record r := rfl

@[simp] theorem portRead_fst (a : Addr) (s : State) : (portRead a s).1 = s.answerAt 0 := rfl

@[simp] theorem portRead_snd (a : Addr) (s : State) :
    (portRead a s).2 = (s.consume 1).record (.port (.read a (s.answerAt 0))) := rfl

/-- What draining `n` bytes does. -/
theorem portReadFifo_eq (n : Byte) (s : State) :
    portReadFifo n s = ((List.range n.toNat).map s.answerAt,
      (s.consume n.toNat).record (.port (.readFifo n ((List.range n.toNat).map s.answerAt)))) := rfl

theorem portReadFifo_length (n : Byte) (s : State) : (portReadFifo n s).1.length = n.toNat := by
  simp [portReadFifo_eq]

/-- A list of records appended to TRACE at once. -/
theorem record_foldl (rs : List Record) (s : State) :
    rs.foldl State.record s = { s with trace := s.trace ++ rs } := by
  induction rs generalizing s with
  | nil => simp
  | cons r rs ih => simp [ih, State.record]

/-- Writing the profile appends one write per entry, in list order. -/
theorem writeProfile_eq (l : List (Addr × Byte)) (s : State) :
    writeProfile l s = { s with trace := s.trace ++ l.map fun e => .port (.write e.1 e.2) } := by
  induction l generalizing s with
  | nil => simp [writeProfile]
  | cons e l ih =>
    have step : writeProfile (e :: l) s = writeProfile l (portWrite e.1 e.2 s) := rfl
    rw [step, ih]; simp [State.record]

/-! ### Working registers, waits, turns -/

/-- A working register's read goes on with its value or records the fault. -/
theorem readWorking_cases {α : Type} {name : WorkingReg} {v : Option α} {s t : State} {go : α → State}
    (h : readWorking name v s go = t) :
    (∃ x, v = some x ∧ t = go x) ∨ (v = none ∧ t = raiseModelFault (.unwritten name) s) := by
  cases v with
  | some x => exact .inl ⟨x, rfl, h.symm⟩
  | none => exact .inr ⟨rfl, h.symm⟩

@[simp] theorem readWorking_some {α : Type} (name : WorkingReg) (x : α) (s : State) (go : α → State) :
    readWorking name (some x) s go = go x := rfl

@[simp] theorem readWorking_none {α : Type} (name : WorkingReg) (s : State) (go : α → State) :
    readWorking name none s go = raiseModelFault (.unwritten name) s := rfl

/-- A wait goes on where the latch is set and holds where it is not. -/
theorem awaitEvent_cases {c : BitVec 5} {s t : State} (h : awaitEvent c s = t) :
    (s.evt = true ∧ t = s.toPhase c) ∨ (s.evt = false ∧ t = s) := by
  cases he : s.evt with
  | true => left; refine ⟨rfl, ?_⟩; rw [← h]; simp [awaitEvent, he]
  | false => right; refine ⟨rfl, ?_⟩; rw [← h]; simp [awaitEvent, he]

/-- The classifier's three verdicts and when each is given. -/
theorem classifyRx_cases (e : BitVec 5) (s n : Byte) :
    (n = 0x00#8 ∧ classifyRx e s n = .empty)
      ∨ (n ≠ 0x00#8 ∧ s.extractLsb' 0 5 = e ∧ classifyRx e s n = .error)
      ∨ (n ≠ 0x00#8 ∧ s.extractLsb' 0 5 ≠ e ∧ classifyRx e s n = .ready n) := by
  by_cases hn : n = 0x00#8
  · exact .inl ⟨hn, by simp [classifyRx, hn]⟩
  · by_cases he : s.extractLsb' 0 5 = e
    · exact .inr (.inl ⟨hn, he, by simp [classifyRx, hn, he]⟩)
    · exact .inr (.inr ⟨hn, he, by simp [classifyRx, hn, he]⟩)

/-- The turn a state with a listed turn picks. -/
theorem pick_cons {s : State} {t : Turn} {ts : List Turn} (h : s.script = t :: ts) : s.pick = t := by
  simp [State.pick, h]

/-- A step that answers a next state: no model fault was recorded, and the turn's instruction ran, or its agent held, or the
reader reported a malformed port word. -/
theorem step_cases {s t : State} (h : step s = .next t) :
    s.mfault = none
      ∧ ((∃ i, s.fetch s.pick = some i ∧ s.mayStep s.pick = true ∧ exec i s.endTurn = .next t)
        ∨ (∃ i, s.fetch s.pick = some i ∧ s.mayStep s.pick = false ∧ t = s.endTurn)
        ∨ (s.fetch s.pick = none ∧ t = s.endTurn.readUnfetched s.pick)) := by
  unfold step at h
  split at h
  · cases h
  · rename_i hm
    refine ⟨hm, ?_⟩
    split at h
    · rename_i hf
      cases h
      exact .inr (.inr ⟨hf, rfl⟩)
    · rename_i i hf
      by_cases hs : s.mayStep s.pick = true
      · rw [if_pos hs] at h
        exact .inl ⟨i, hf, hs, h⟩
      · rw [if_neg hs] at h
        cases h
        exact .inr (.inl ⟨i, hf, by simpa using hs, rfl⟩)

/-- Once MFAULT is set, a step stops. -/
theorem step_of_mfault {s : State} {r : ModelFault} (h : s.mfault = some r) : step s = .fault (.stopped r) := by
  simp [step, h]

/-- A fetched instruction whose agent may step is run. -/
theorem step_runs {s : State} {i : Instr} (hm : s.mfault = none) (hf : s.fetch s.pick = some i)
    (hs : s.mayStep s.pick = true) : step s = exec i s.endTurn := by
  simp [step, hm, hf, hs]

/-- An agent that may not step holds. -/
theorem step_holds {s : State} {i : Instr} (hm : s.mfault = none) (hf : s.fetch s.pick = some i)
    (hs : s.mayStep s.pick = false) : step s = .next s.endTurn := by
  simp [step, hm, hf, hs]

/-- A sequencer's turn fetches the phase in PH. -/
@[simp] theorem fetch_sequencer (s : State) : s.fetch .sequencer = some (decodePhase s.ph) := rfl

@[simp] theorem fetch_event (s : State) (e : BitVec 2) : s.fetch (.event e) = some (decodeEvent e) := rfl

/-! ### The trace reader -/

/-- After an invalid word the reader reads nothing more. -/
theorem feed_invalid {r : PortReader} {k : Nat} (h : r.invalid = some k) (p : PortWord) : r.feed p = r := by
  simp [PortReader.feed, h]

theorem malformed_invalid {r : PortReader} {k : Nat} (h : r.invalid = some k) (w : BitVec 32) : r.malformed w = r := by
  simp [PortReader.malformed, h]

/-- What a malformed word does to a reader that has reported nothing: an FDATA word reports its own index, any other the index of
the header it cuts short, or its own where no burst is open. -/
theorem malformed_eq {r : PortReader} (h : r.invalid = none) (w : BitVec 32) :
    r.malformed w = r.reject
      (if w.extractLsb' 28 4 = 0x6#4 then r.index else (r.burst.map Burst.header).getD r.index) := by
  by_cases hk : w.extractLsb' 28 4 = 0x6#4
  · simp [PortReader.malformed, h, hk]
  · cases hb : r.burst <;> simp [PortReader.malformed, PortReader.outsideBurst, h, hk, hb]

/-- A turn that gives the trace reader a malformed word: only the reader takes it. -/
theorem step_malformed {s : State} {w : BitVec 32} {e : DecodeError} (hm : s.mfault = none) (hp : s.pick = .word w)
    (hd : decodePort w = .error e) : step s = .next (s.endTurn.readMalformed w) := by
  simp [step, hm, hp, State.fetch, hd, Except.toOption, State.readUnfetched]

/-- Outside a burst the word is taken. -/
theorem outsideBurst_none {r : PortReader} (h : r.burst = none) (t : PortReader) : r.outsideBurst t = t := by
  simp [PortReader.outsideBurst, h]

/-- Inside a burst the header is reported. -/
theorem outsideBurst_some {r : PortReader} {b : Burst} (h : r.burst = some b) (t : PortReader) :
    r.outsideBurst t = r.reject b.header := by
  simp [PortReader.outsideBurst, h]

end Sys2Proof.Machine
end

