-- ==== Sys2Proof/Laws/PerInstr.lean ====
section
/-!
SUPPORT. The families of statements made per instruction: `EncodeFits` says that an instruction's code is a number of its
format's width (30_encoding.md R62).
-/

namespace Sys2Proof.Laws

/-- The code of `i` fits its format. -/
def EncodeFits.Statement (i : Instr) : Prop :=
  (encode i).2 < 2 ^ (encode i).1.width

theorem EncodeFits.config : EncodeFits.Statement .config := by
  unfold EncodeFits.Statement; decide

theorem EncodeFits.calBeginHigh : EncodeFits.Statement .calBeginHigh := by
  unfold EncodeFits.Statement; decide

theorem EncodeFits.calPollHigh : EncodeFits.Statement .calPollHigh := by
  unfold EncodeFits.Statement; decide

theorem EncodeFits.calSnapHigh : EncodeFits.Statement .calSnapHigh := by
  unfold EncodeFits.Statement; decide

theorem EncodeFits.calBeginMid : EncodeFits.Statement .calBeginMid := by
  unfold EncodeFits.Statement; decide

theorem EncodeFits.calPollMid : EncodeFits.Statement .calPollMid := by
  unfold EncodeFits.Statement; decide

theorem EncodeFits.calSnapMid : EncodeFits.Statement .calSnapMid := by
  unfold EncodeFits.Statement; decide

theorem EncodeFits.calApply : EncodeFits.Statement .calApply := by
  unfold EncodeFits.Statement; decide

theorem EncodeFits.txArm : EncodeFits.Statement .txArm := by
  unfold EncodeFits.Statement; decide

theorem EncodeFits.txWait : EncodeFits.Statement .txWait := by
  unfold EncodeFits.Statement; decide

theorem EncodeFits.txComplete : EncodeFits.Statement .txComplete := by
  unfold EncodeFits.Statement; decide

theorem EncodeFits.txDelay : EncodeFits.Statement .txDelay := by
  unfold EncodeFits.Statement; decide

theorem EncodeFits.rxArm : EncodeFits.Statement .rxArm := by
  unfold EncodeFits.Statement; decide

theorem EncodeFits.rxWait : EncodeFits.Statement .rxWait := by
  unfold EncodeFits.Statement; decide

theorem EncodeFits.rxInspect : EncodeFits.Statement .rxInspect := by
  unfold EncodeFits.Statement; decide

theorem EncodeFits.rxDrain : EncodeFits.Statement .rxDrain := by
  unfold EncodeFits.Statement; decide

theorem EncodeFits.rxFlush : EncodeFits.Statement .rxFlush := by
  unfold EncodeFits.Statement; decide

theorem EncodeFits.halt : EncodeFits.Statement .halt := by
  unfold EncodeFits.Statement; decide

theorem EncodeFits.reserved12 (low : BitVec 1) : EncodeFits.Statement (.reserved12 low) :=
  BitVec.isLt _

theorem EncodeFits.reserved14 (low : BitVec 2) : EncodeFits.Statement (.reserved14 low) :=
  BitVec.isLt _

theorem EncodeFits.reserved18 (low : BitVec 3) : EncodeFits.Statement (.reserved18 low) :=
  BitVec.isLt _

theorem EncodeFits.resetPor : EncodeFits.Statement .resetPor := by
  unfold EncodeFits.Statement; decide

theorem EncodeFits.resetWdt : EncodeFits.Statement .resetWdt := by
  unfold EncodeFits.Statement; decide

theorem EncodeFits.edge : EncodeFits.Statement .edge := by
  unfold EncodeFits.Statement; decide

theorem EncodeFits.isr : EncodeFits.Statement .isr := by
  unfold EncodeFits.Statement; decide

theorem EncodeFits.portRead (a : Addr) (d : Byte) : EncodeFits.Statement (.portRead a d) :=
  BitVec.isLt _

theorem EncodeFits.portWrite (a : Addr) (d : Byte) : EncodeFits.Statement (.portWrite a d) :=
  BitVec.isLt _

theorem EncodeFits.portStrobe (c : Byte) : EncodeFits.Statement (.portStrobe c) :=
  BitVec.isLt _

theorem EncodeFits.portRfifo (n : Byte) : EncodeFits.Statement (.portRfifo n) :=
  BitVec.isLt _

theorem EncodeFits.portWfifo (n : Byte) : EncodeFits.Statement (.portWfifo n) :=
  BitVec.isLt _

theorem EncodeFits.portFdata (b : Byte) : EncodeFits.Statement (.portFdata b) :=
  BitVec.isLt _

theorem EncodeFits.portReserved (w : BitVec 32) : EncodeFits.Statement (.portReserved w) :=
  BitVec.isLt _

end Sys2Proof.Laws
end

