-- ==== Sys2Proof/Laws/Safety.lean ====
section
/-!
SUPPORT. The small lemmas of the views of TRACE that the claims speak of: what records appended to TRACE do to the records since
the last reset or checkpoint, to the packets among them, and to the records without edges.
-/

namespace Sys2Proof.Machine

/-- Records appended to TRACE continue those since the last reset. -/
theorem sinceReset_append (tr new : List Record) : sinceReset (tr ++ new) = new.foldl addSinceReset (sinceReset tr) :=
  List.foldl_append

/-- Records appended to TRACE continue those since the last checkpoint. -/
theorem sinceKick_append (tr new : List Record) : sinceKick (tr ++ new) = new.foldl addSinceKick (sinceKick tr) :=
  List.foldl_append

/-- A reset record starts the records since the last reset anew. -/
@[simp] theorem sinceReset_reset (tr : List Record) (c : ResetCause) : sinceReset (tr ++ [.reset c]) = [] := by
  rw [sinceReset_append]; rfl

/-- A reset record starts the records since the last checkpoint anew. -/
@[simp] theorem sinceKick_reset (tr : List Record) (c : ResetCause) : sinceKick (tr ++ [.reset c]) = [] := by
  rw [sinceKick_append]; rfl

/-- A Kick starts the records since the last checkpoint anew. -/
@[simp] theorem sinceKick_kick (tr : List Record) : sinceKick (tr ++ [.kick]) = [] := by
  rw [sinceKick_append]; rfl

/-- A list that ends in a Kick leaves nothing since the last checkpoint. -/
theorem sinceKick_append_kick (tr new : List Record) : sinceKick (tr ++ (new ++ [.kick])) = [] := by
  rw [← List.append_assoc, sinceKick_kick]

@[simp] theorem sinceKick_edge (tr : List Record) : sinceKick (tr ++ [.edge]) = sinceKick tr ++ [.edge] := by
  rw [sinceKick_append]; rfl

/-- Port records and diagnostics appended to TRACE are since the last checkpoint. -/
theorem sinceKick_append_plain (tr new : List Record) (h : ∀ r ∈ new, (∃ p, r = .port p) ∨ ∃ d, r = .diag d) :
    sinceKick (tr ++ new) = sinceKick tr ++ new := by
  rw [sinceKick_append]
  generalize sinceKick tr = acc
  induction new generalizing acc with
  | nil => simp
  | cons r new ih =>
    have hr : addSinceKick acc r = acc ++ [r] := by
      rcases h r (by simp) with ⟨p, rfl⟩ | ⟨d, rfl⟩ <;> rfl
    rw [List.foldl_cons, hr, ih (fun x hx => h x (List.mem_cons_of_mem _ hx))]
    simp

@[simp] theorem packetsOf_append (a b : List Record) : packetsOf (a ++ b) = packetsOf a ++ packetsOf b := by
  induction a with
  | nil => rfl
  | cons r a ih => rcases r with (_ | _ | _ | _ | _) | _ | _ | _ | _ <;> simp [packetsOf, ih]

@[simp] theorem withoutEdges_append (a b : List Record) : withoutEdges (a ++ b) = withoutEdges a ++ withoutEdges b :=
  List.filter_append a b

@[simp] theorem withoutEdges_nil : withoutEdges [] = [] := rfl

@[simp] theorem withoutEdges_edge (rs : List Record) : withoutEdges (.edge :: rs) = withoutEdges rs := rfl

@[simp] theorem withoutEdges_port (p : PortRecord) (rs : List Record) :
    withoutEdges (.port p :: rs) = .port p :: withoutEdges rs := rfl

@[simp] theorem withoutEdges_diag (d : Diag) (rs : List Record) : withoutEdges (.diag d :: rs) = .diag d :: withoutEdges rs := rfl

@[simp] theorem withoutEdges_kick (rs : List Record) : withoutEdges (.kick :: rs) = .kick :: withoutEdges rs := rfl

@[simp] theorem withoutEdges_reset (c : ResetCause) (rs : List Record) :
    withoutEdges (.reset c :: rs) = .reset c :: withoutEdges rs := rfl

end Sys2Proof.Machine
end

