-- ==== Sys2Proof/Laws/Step.lean ====
section
/-!
SUPPORT. What a step can do, said once: one of six cases, by whose turn it was (40_sequencer.md R78).
-/

namespace Sys2Proof.Machine

/-- A port word's meaning is the trace reader's taking it. -/
theorem exec_toInstr (p : PortWord) (s : State) : exec p.toInstr s = .next (s.readPortWord p) := by
  cases p <;> rfl

/-- A fetched port word is one of `PortWord`. -/
theorem fetch_word {s : State} {w : BitVec 32} {i : Instr} (h : s.fetch (.word w) = some i) :
    ∃ p : PortWord, decodePortWord w = .ok p ∧ i = p.toInstr := by
  simp only [State.fetch, decodePort] at h
  cases hd : decodePortWord w with
  | ok p => rw [hd] at h; exact ⟨p, rfl, (Option.some.inj h).symm⟩
  | error e => rw [hd] at h; cases h

/-- Every instruction answers a next state. -/
theorem exec_next (i : Instr) (s : State) : ∃ t, exec i s = .next t := by
  cases i <;> exact ⟨_, rfl⟩

/-- The event codes. -/
theorem event_cases (e : BitVec 2) : e = 0#2 ∨ e = 1#2 ∨ e = 2#2 ∨ e = 3#2 := by
  revert e; decide

/-- What a step that answers a next state did: an agent held; the sequencer ran the phase in PH; an edge came; the interrupt
was taken; a reset came; the trace reader took a word. -/
theorem step_turns {s t : State} (h : step s = .next t) :
    s.mfault = none
      ∧ (t = s.endTurn
        ∨ (s.pick = .sequencer ∧ s.irqPend = false ∧ exec (decodePhase s.ph) s.endTurn = .next t)
        ∨ (s.pick = .event 2#2 ∧ t = signalEdge s.endTurn)
        ∨ (s.pick = .event 3#2 ∧ s.irqPend = true ∧ t = takeInterrupt s.endTurn)
        ∨ (s.pick = .event 0#2 ∧ t = applyReset .powerOn s.endTurn)
        ∨ (s.pick = .event 1#2 ∧ t = applyReset .watchdog s.endTurn)
        ∨ ∃ w r, s.pick = .word w ∧ t = { s.endTurn with reader := r }) := by
  obtain ⟨hm, h⟩ := step_cases h
  refine ⟨hm, ?_⟩
  cases hk : s.pick with
  | sequencer =>
    rw [hk] at h
    rcases h with ⟨i, hf, hs, he⟩ | ⟨i, hf, hs, rfl⟩ | ⟨hf, -⟩
    · cases hf
      exact .inr (.inl ⟨rfl, by simpa [State.mayStep] using hs, he⟩)
    · exact .inl rfl
    · cases hf
  | event e =>
    rw [hk] at h
    rcases h with ⟨i, hf, hs, he⟩ | ⟨i, hf, hs, rfl⟩ | ⟨hf, -⟩
    · cases hf
      rcases event_cases e with rfl | rfl | rfl | rfl <;> cases he
      · exact .inr (.inr (.inr (.inr (.inl ⟨rfl, rfl⟩))))
      · exact .inr (.inr (.inr (.inr (.inr (.inl ⟨rfl, rfl⟩)))))
      · exact .inr (.inr (.inl ⟨rfl, rfl⟩))
      · exact .inr (.inr (.inr (.inl ⟨rfl, by simpa [State.mayStep] using hs, rfl⟩)))
    · exact .inl rfl
    · cases hf
  | word w =>
    rw [hk] at h
    rcases h with ⟨i, hf, hs, he⟩ | ⟨i, hf, hs, rfl⟩ | ⟨hf, rfl⟩
    · obtain ⟨p, -, rfl⟩ := fetch_word hf
      rw [exec_toInstr] at he
      cases he
      exact .inr (.inr (.inr (.inr (.inr (.inr ⟨w, _, rfl, rfl⟩)))))
    · exact .inl rfl
    · exact .inr (.inr (.inr (.inr (.inr (.inr ⟨w, _, rfl, rfl⟩)))))

/-- A run whose first step answers a next state goes on from there. -/
theorem run_step {s t : State} (h : step s = .next t) (k : Nat) : core.run (k + 1) s = core.run k t := by
  simp [core, Host.Core.run, h]

/-- Runs add up. -/
theorem run_add {s t : State} {j : Nat} (h : core.run j s = .next t) (k : Nat) : core.run (j + k) s = core.run k t := by
  induction j generalizing s with
  | zero => cases h; rw [Nat.zero_add]
  | succ j ih =>
    rw [Nat.succ_add]
    cases hs : step s with
    | next u => rw [run_step hs] at h ⊢; exact ih h
    | fault r => simp [core, Host.Core.run, hs] at h
    | refused r => simp [core, Host.Core.run, hs] at h

end Sys2Proof.Machine
end

