-- ==== Sys2Proof/Tests/Slice0.lean ====
section
/-!
SUPPORT. Small tests: ill-formed terms the checks refuse, words written out from the code tables, single steps whose results
are the vectors V-… of 95_test_vectors.md (configuration X1 of its section 0), and for each statement with hypotheses a
concrete state that meets them.
-/

namespace Sys2Proof.Tests

open Sys2Proof.Machine

/-! ### Helpers -/

/-- Configuration X1 (95_test_vectors.md section 0), with a mode and a poll limit; RX_BUF_CAP at its default. -/
def x1 (m : Mode) (limit : Option Nat) : Params :=
  { mode := m, regProfile := [(0x0003, 0xB0)], aVcoCap := 0x2F25, aCalCtrl := 0x2F15, aFsVco2 := 0x2F25, aFsVco4 := 0x2F23
    aFsChp := 0x2F18, aMarcState := 0x2F73, aNumRxBytes := 0x2FD7, cmdScal := 0x33, cmdStx := 0x35, cmdSrx := 0x34
    cmdSfrx := 0x3A, vcdacStartOffset := 2, marcSettled := 0x41, fifoErrCode := 0x11, calPollLimit := limit
    fifoCapacity := 128, pktLenMax := 5, payload := ⟨[], [0xAA, 0x55]⟩, interPacketDelay := 0
    wdtPeriod := 0 }

/-- A machine after reset, in the given mode. -/
def tx : State := .resetOf ⟨x1 .tx (some 8), by decide⟩

/-- See `tx`. -/
def rx : State := .resetOf ⟨x1 .rx (some 8), by decide⟩

/-- See `tx`; with CAL_POLL_LIMIT = 1. -/
def tx1 : State := .resetOf ⟨x1 .tx (some 1), by decide⟩

/-- A machine in phase `c` whose radio will give these answers. -/
def inPhase (s : State) (c : BitVec 5) (answers : List Byte) : State :=
  { s with ph := c, answers := answers }

/-- What is seen after one instruction. -/
def seen {α : Type} (i : Instr) (s : State) (f : State → α) : Option α :=
  match exec i s with
  | .next t => some (f t)
  | .fault _ => none
  | .refused _ => none

/-- What is seen after one step. -/
def seenStep {α : Type} (s : State) (f : State → α) : Option α :=
  match step s with
  | .next t => some (f t)
  | .fault _ => none
  | .refused _ => none

/-- The refusal a line ends in. -/
def refusalOf : Host.Outcome State Fault Refusal → Option Refusal
  | .next _ => none
  | .fault _ => none
  | .refused r => some r

/-! ### Parameters -/

/-- RX_BUF_CAP defaults to FIFO_CAPACITY (R7, D36): 128 in X1. -/
theorem test_rxBufCap_default : (x1 .tx none).rxBufCap = 128 := by decide

/-- The default does not override a capacity that is given, and follows FIFO_CAPACITY where it is not. -/
theorem test_rxBufCap_given : { x1 .tx none with rxBufCap := 200 }.rxBufCap = 200 ∧ Config.smallest.params.rxBufCap = 4 := by decide

/-! ### WellFormed refuses ill-formed terms -/

theorem test_wf_rfifo_empty : (Instr.portRfifo 0).wf = false := by decide
theorem test_wf_wfifo_empty : (Instr.portWfifo 0).wf = false := by decide
theorem test_wf_reserved_kind_one : (Instr.portReserved 0x1FFFFFFF).wf = false := by decide
theorem test_wf_reserved_kind_six : (Instr.portReserved 0x60000000).wf = false := by decide
theorem test_wf_reserved_kinds : (Instr.portReserved 0x0FFFFFFF).wf = true ∧ (Instr.portReserved 0x70000000).wf = true := by decide
theorem test_wf_record_count : (PortRecord.readFifo 2 [0]).wf = false := by decide
theorem test_wf_record_empty_read : (PortRecord.readFifo 0 []).wf = false := by decide
theorem test_wf_record_empty_write : (PortRecord.writeFifo []).wf = false := by decide
theorem test_wf_config_pktLenMax : (Config.instantiate { x1 .tx none with pktLenMax := 2 }).isNone = true := by decide
theorem test_wf_config_fifoCapacity : (Config.instantiate { x1 .tx none with pktLenMax := 128 }).isNone = true := by decide
theorem test_wf_config_rxBufCap : (Config.instantiate { x1 .tx none with rxBufCap := 127 }).isNone = true := by decide
theorem test_wf_config_rxBufCap_byte : (Config.instantiate { x1 .tx none with rxBufCap := 256 }).isNone = true := by decide
theorem test_wf_config_payload : (Config.instantiate { x1 .tx none with payload := ⟨[(7, [1, 2, 3])], []⟩ }).isNone = true := by
  decide
theorem test_wf_config_pollLimit : (Config.instantiate (x1 .tx (some 0))).isNone = true := by decide

/-! ### Words written out from R63, R68 and R69 -/

theorem test_decode_config : decode .phase 0b00000 = .ok .config := by decide
theorem test_decode_calBeginHigh : decode .phase 0b00001 = .ok .calBeginHigh := by decide
theorem test_decode_calPollHigh : decode .phase 0b00010 = .ok .calPollHigh := by decide
theorem test_decode_calSnapHigh : decode .phase 0b00011 = .ok .calSnapHigh := by decide
theorem test_decode_calBeginMid : decode .phase 0b00100 = .ok .calBeginMid := by decide
theorem test_decode_calPollMid : decode .phase 0b00101 = .ok .calPollMid := by decide
theorem test_decode_calSnapMid : decode .phase 0b00110 = .ok .calSnapMid := by decide
theorem test_decode_calApply : decode .phase 0b00111 = .ok .calApply := by decide
theorem test_decode_txArm : decode .phase 0b01000 = .ok .txArm := by decide
theorem test_decode_txWait : decode .phase 0b01001 = .ok .txWait := by decide
theorem test_decode_txComplete : decode .phase 0b01010 = .ok .txComplete := by decide
theorem test_decode_txDelay : decode .phase 0b01011 = .ok .txDelay := by decide
theorem test_decode_rxArm : decode .phase 0b01100 = .ok .rxArm := by decide
theorem test_decode_rxWait : decode .phase 0b01101 = .ok .rxWait := by decide
theorem test_decode_rxInspect : decode .phase 0b01110 = .ok .rxInspect := by decide
theorem test_decode_rxDrain : decode .phase 0b01111 = .ok .rxDrain := by decide
theorem test_decode_rxFlush : decode .phase 0b10000 = .ok .rxFlush := by decide
theorem test_decode_halt : decode .phase 0b10001 = .ok .halt := by decide
theorem test_decode_reserved12 : decode .phase 0b10010 = .ok (.reserved12 0b0#1) := by decide
theorem test_decode_reserved14 : decode .phase 0b10111 = .ok (.reserved14 0b11#2) := by decide
theorem test_decode_reserved18 : decode .phase 0b11101 = .ok (.reserved18 0b101#3) := by decide
theorem test_decode_resetPor : decode .event 0b00 = .ok .resetPor := by decide
theorem test_decode_resetWdt : decode .event 0b01 = .ok .resetWdt := by decide
theorem test_decode_edge : decode .event 0b10 = .ok .edge := by decide
theorem test_decode_isr : decode .event 0b11 = .ok .isr := by decide
theorem test_decode_portRead : decode .port 0b00010000001011110111001101000001 = .ok (.portRead 0x2F73#16 0x41#8) := by decide
theorem test_decode_portWrite : decode .port 0b00100000001011110001010100100010 = .ok (.portWrite 0x2F15#16 0x22#8) := by decide
theorem test_decode_portStrobe : decode .port 0b00110000000000000000000000110101 = .ok (.portStrobe 0x35#8) := by decide
theorem test_decode_portRfifo : decode .port 0b01000000000000000000000000000011 = .ok (.portRfifo 3#8) := by decide
theorem test_decode_portWfifo : decode .port 0b01010000000000000000000000000101 = .ok (.portWfifo 5#8) := by decide
theorem test_decode_portFdata : decode .port 0b01100000000000000000000010101010 = .ok (.portFdata 0xAA#8) := by decide
theorem test_decode_portReserved : decode .port 0b01110000000000000000000000000000 = .ok (.portReserved 0x70000000#32) := by
  decide
theorem test_decode_reservedBits : decode .port 0x31000035 = .error .reservedBits := by decide
theorem test_decode_addressBits : decode .port 0x40000103 = .error .addressBits := by decide
theorem test_decode_tooWide : decode .phase 32 = .error (.tooWide .phase) ∧ decode .event 4 = .error (.tooWide .event) := by
  decide

/-- V-ENC-4. -/
theorem test_pack_writeFifo :
    packTrace [.writeFifo [0x05, 0x00, 0x01, 0xAA, 0x55]]
      = [0x50000005, 0x60000005, 0x60000000, 0x60000001, 0x600000AA, 0x60000055] := by decide

/-- V-ENC-5, read back. -/
theorem test_read_readFifo :
    decodePortTrace [0x40000003, 0x60000003, 0x600000FF, 0x600000FF] = .ok [.readFifo 3 [0x03, 0xFF, 0xFF]] := by decide

/-- V-ENC-6. -/
theorem test_read_reserved : decodePortTrace [0x30000035, 0x70000000] = .error 1 := by decide

/-- V-ENC-7. -/
theorem test_read_reservedBits : decodePortTrace [0x31000035] = .error 0 := by decide

/-- V-ENC-8. -/
theorem test_read_short : decodePortTrace [0x40000002, 0x60000001] = .error 0 := by decide

/-- V-ENC-9. -/
theorem test_read_empty : decodePortTrace [0x50000000] = .error 0 := by decide

/-- R70: an FDATA word with no unfinished burst. -/
theorem test_read_fdata : decodePortTrace [0x40000001, 0x60000001, 0x60000002] = .error 2 := by decide

/-! ### STATUS: V-ENC-10, 12, 13, 14 -/

theorem test_status_tx : { tx with ph := 0x09, irqPend := true, hb := true }.status = some 0x0649 := by decide
theorem test_status_halt : { tx with ph := 0x11, fatal := true }.status = some 0x0811 := by decide
theorem test_status_rx : { rx with ph := 0x0D, evt := true }.status = some 0x118D := by decide
theorem test_status_flush : { rx with ph := 0x10, evt := true }.status = some 0x11D0 := by decide
theorem test_status_reset : rx.status = some 0x1000 ∧ tx.status = some 0x0000 := by decide
theorem test_status_reserved : { tx with ph := 0x12 }.status = none := by decide

/-! ### The phases -/

/-- The example of R87. -/
theorem test_config : seen .config tx (fun t => (t.ph, t.trace))
    = some (0x01, [.port (.write 0x0003 0xB0), .diag (.config .tx 1)]) := by decide

/-- V-CAL-1. -/
theorem test_calBeginHigh : seen .calBeginHigh (inPhase tx 0x01 [0x20]) (fun t => (t.ph, t.calBase, t.polls, t.trace))
    = some (0x02, some 0x20, some 0, [.port (.write 0x2F25 0x00), .port (.read 0x2F15 0x20), .port (.write 0x2F15 0x22),
        .port (.strobe 0x33)]) := by decide

/-- V-CAL-3. -/
theorem test_calBeginHigh_wraps : seen .calBeginHigh (inPhase tx 0x01 [0xFF]) (fun t => (t.calBase, t.trace[2]?))
    = some (some 0xFF, some (.port (.write 0x2F15 0x01))) := by decide

/-- V-CAL-5: the settle test is of the whole byte. -/
theorem test_calPollHigh_again : seen .calPollHigh { inPhase tx 0x02 [0x01] with polls := some 0 } (fun t => (t.ph, t.polls))
    = some (0x02, some 1) := by decide

/-- V-CAL-6. -/
theorem test_calPollHigh_last : seen .calPollHigh { inPhase tx 0x02 [0x41] with polls := some 7 } (fun t => (t.ph, t.fatal))
    = some (0x03, false) := by decide

/-- V-CAL-8. -/
theorem test_calPollMid_timeout : seen .calPollMid { inPhase tx1 0x05 [0x0F] with polls := some 0 }
      (fun t => (t.ph, t.fatal, t.polls, t.trace))
    = some (0x11, true, some 1, [.port (.read 0x2F73 0x0F), .diag (.calTimeout .mid 1)]) := by decide

/-- V-CAL-10. -/
theorem test_calSnapHigh : seen .calSnapHigh (inPhase tx 0x03 [0x07, 0x1A, 0x2B]) (fun t => (t.ph, t.calH, t.trace))
    = some (0x04, some ⟨0x07, 0x1A, 0x2B⟩, [.port (.read 0x2F25 0x07), .port (.read 0x2F23 0x1A), .port (.read 0x2F18 0x2B)]) := by
  decide

/-- V-CAL-11. -/
theorem test_calBeginMid : seen .calBeginMid { inPhase tx 0x04 [] with calBase := some 0x20 } (fun t => (t.ph, t.polls, t.trace))
    = some (0x05, some 0, [.port (.write 0x2F25 0x00), .port (.write 0x2F15 0x20), .port (.strobe 0x33)]) := by decide

/-- V-SEQ-7. -/
theorem test_calBeginMid_unwritten : seen .calBeginMid (inPhase tx 0x04 []) (fun t => t.mfault)
    = some (some (.unwritten .calBase)) := by decide

/-- The example of R100. -/
theorem test_calSnapMid : seen .calSnapMid (inPhase tx 0x06 [0x03, 0x11, 0x22]) (fun t => (t.ph, t.calM, t.calH))
    = some (0x07, some ⟨0x03, 0x11, 0x22⟩, none) := by decide

/-- V-CAL-12: a tie goes to the mid triple. -/
theorem test_calApply_tie :
    seen .calApply { inPhase tx 0x07 [] with calH := some ⟨0x05, 0x10, 0x20⟩, calM := some ⟨0x05, 0x30, 0x40⟩ }
      (fun t => (t.ph, t.trace))
    = some (0x08, [.port (.write 0x2F25 0x05), .port (.write 0x2F23 0x30), .port (.write 0x2F18 0x40), .kick]) := by decide

/-- V-CAL-13: the comparison is unsigned. -/
theorem test_calApply_unsigned :
    seen .calApply { inPhase rx 0x07 [] with calH := some ⟨0x80, 0x01, 0x02⟩, calM := some ⟨0x7F, 0x03, 0x04⟩ }
      (fun t => (t.ph, t.trace.head?))
    = some (0x0C, some (.port (.write 0x2F25 0x80))) := by decide

/-- V-TX-1. -/
theorem test_txArm : seen .txArm (inPhase tx 0x08 []) (fun t => (t.ph, t.seq, t.trace))
    = some (0x09, 0x0001, [.port (.writeFifo [0x05, 0x00, 0x01, 0xAA, 0x55]), .port (.strobe 0x35)]) := by decide

/-- V-TX-2. -/
theorem test_txWait : seen .txWait { inPhase tx 0x09 [] with evt := true } (fun t => (t.ph, t.evt)) = some (0x0A, true) := by
  decide

/-- V-TX-3. -/
theorem test_txComplete : seen .txComplete { inPhase tx 0x0A [] with evt := true } (fun t => (t.ph, t.evt, t.hb, t.seq))
    = some (0x0B, false, true, 0x0002) := by decide

/-- V-TX-5. -/
theorem test_txComplete_wraps : seen .txComplete { inPhase tx 0x0A [] with seq := 0xFFFF, hb := true } (fun t => (t.hb, t.seq))
    = some (false, 0x0000) := by decide

/-- V-TX-4. -/
theorem test_txDelay : seen .txDelay (inPhase tx 0x0B []) (fun t => (t.ph, t.trace)) = some (0x08, [.kick]) := by decide

/-- V-RX-1. -/
theorem test_rxArm : seen .rxArm (inPhase rx 0x0C []) (fun t => (t.ph, t.trace)) = some (0x0D, [.port (.strobe 0x34)]) := by
  decide

/-- The example of R128. -/
theorem test_rxWait : seen .rxWait { inPhase rx 0x0D [] with evt := true } (fun t => (t.ph, t.evt)) = some (0x0E, true) := by
  decide

/-- V-RX-2: the machine-state register is not read. -/
theorem test_rxInspect_empty : seen .rxInspect { inPhase rx 0x0E [0x00] with evt := true } (fun t => (t.ph, t.evt, t.trace))
    = some (0x0C, false, [.port (.read 0x2FD7 0x00), .kick]) := by decide

/-- V-RX-4. -/
theorem test_rxInspect_error : seen .rxInspect { inPhase rx 0x0E [0x09, 0x31] with evt := true } (fun t => (t.ph, t.evt, t.rxn))
    = some (0x10, true, none) := by decide

/-- V-RX-5. -/
theorem test_rxDrain :
    seen .rxDrain { inPhase rx 0x0F [0x05, 0x00, 0x01, 0xAA, 0x55] with rxn := some 5, evt := true } (fun t => (t.ph, t.evt, t.trace))
    = some (0x0C, false, [.port (.readFifo 5 [0x05, 0x00, 0x01, 0xAA, 0x55]), .diag (.rxPacket 5 0x0001 [0xAA, 0x55]), .kick]) := by
  decide

/-- V-RX-7. -/
theorem test_rxDrain_above : seen .rxDrain { inPhase rx 0x0F [] with rxn := some 200 } (fun t => (t.ph, t.trace))
    = some (0x0C, [.port (.strobe 0x3A), .diag (.framingError none 200), .kick]) := by decide

/-- V-RX-8. -/
theorem test_rxFlush : seen .rxFlush { inPhase rx 0x10 [] with evt := true } (fun t => (t.ph, t.evt, t.trace))
    = some (0x0C, false, [.port (.strobe 0x3A), .diag (.fifoError .statusOverflow), .kick]) := by decide

/-- V-SEQ-5. -/
theorem test_halt : (inPhase tx 0x11 []).sequencerEnabled = false := by decide

/-- V-SEQ-6. -/
theorem test_reserved14 : seenStep { inPhase tx 0x15 [] with script := [.sequencer] } (fun t => t.mfault)
    = some (some (.reservedPhase 0x15)) := by decide

theorem test_reserved12 : seen (.reserved12 1) tx (fun t => t.mfault) = some (some (.reservedPhase 0x13)) := by decide

theorem test_reserved18 : seen (.reserved18 7) tx (fun t => t.mfault) = some (some (.reservedPhase 0x1F)) := by decide

/-! ### The events -/

/-- V-HND-2: edges merge. -/
theorem test_edge : seen .edge { tx with irqPend := true } (fun t => (t.irqPend, t.trace)) = some (true, [.edge]) := by decide

/-- V-HND-3. -/
theorem test_isr : seen .isr { tx with irqPend := true } (fun t => (t.evt, t.irqPend, t.trace)) = some (true, false, []) := by
  decide

/-- V-HND-5: not enabled, so the turn is a hold. -/
theorem test_isr_notEnabled : seenStep { tx with script := [.event 3] } (fun t => t.evt) = some false := by decide

/-- V-SEQ-4. -/
theorem test_interrupt_first : { inPhase tx 0x08 [] with irqPend := true }.sequencerEnabled = false
    ∧ { inPhase tx 0x08 [] with irqPend := true }.interruptEnabled = true := by decide

/-- V-RST-1. -/
theorem test_resetWdt : seen .resetWdt { inPhase rx 0x0D [] with evt := true, irqPend := true, rxn := some 5 }
      (fun t => (t.ph, t.evt, t.irqPend, t.rxn, t.trace))
    = some (0x00, false, false, none, [.reset .watchdog]) := by decide

/-- V-RST-3. -/
theorem test_resetPor : seen .resetPor { inPhase tx 0x0A [] with seq := 0x0007, hb := true } (fun t => (t.seq, t.hb, t.trace))
    = some (0x0001, false, [.reset .powerOn]) := by decide

/-! ### The port words -/

theorem test_portRead : seen (.portRead 0x2F73 0x41) tx (fun t => t.reader.records) = some [.read 0x2F73 0x41] := by decide
theorem test_portWrite : seen (.portWrite 0x2F15 0x22) tx (fun t => t.reader.records) = some [.write 0x2F15 0x22] := by decide
theorem test_portStrobe : seen (.portStrobe 0x35) tx (fun t => (t.reader.records, t.trace)) = some ([.strobe 0x35], []) := by decide
theorem test_portRfifo_empty : seen (.portRfifo 0) tx (fun t => t.reader.invalid) = some (some 0) := by decide
theorem test_portWfifo_inside :
    seen (.portWfifo 1) { tx with reader := ⟨3, some ⟨2, false, 4, []⟩, [], none⟩ } (fun t => t.reader.invalid) = some (some 2) := by
  decide
theorem test_portFdata_last :
    seen (.portFdata 9) { tx with reader := ⟨3, some ⟨1, true, 2, [8]⟩, [], none⟩ } (fun t => (t.reader.burst, t.reader.records))
      = some (none, [.writeFifo [8, 9]]) := by decide
theorem test_portReserved : seen (.portReserved 0x70000000) tx (fun t => t.reader.invalid) = some (some 0) := by decide

/-! ### The codec: V-COD -/

theorem test_build : buildTxPacket 0x1234 [0x01] = [0x04, 0x12, 0x34, 0x01] := by decide
theorem test_build_empty : buildTxPacket 0xFFFF [] = [0x03, 0xFF, 0xFF] := by decide
theorem test_classify_empty : classifyRx 0x11 0x11 0 = .empty := by decide
theorem test_classify_error : classifyRx 0x11 0xF1 128 = .error := by decide
theorem test_classify_ready : classifyRx 0x11 0x12 255 = .ready 255 := by decide
theorem test_parse : parseRxPacket 128 [0x03, 0x00, 0x05, 0xEE, 0xEE] = .packet 3 0x0005 [] := by decide
theorem test_parse_short : parseRxPacket 128 [0x02, 0x00, 0x01] = .framingError 2 3 := by decide
theorem test_parse_long : parseRxPacket 128 [0x07, 0x00, 0x02, 0x01] = .framingError 7 4 := by decide
/-- R108 with a smaller RX_BUF_CAP. -/
theorem test_parse_cap : parseRxPacket 4 [0x05, 0x00, 0x01, 0xAA, 0x55] = .framingError 5 5 := by decide

/-! ### A word placed after reset is run by the next step -/

theorem test_placed_phase : seenStep (State.reset.withFetchWord 8 0x09) (fun t => (t.ph, t.turn)) = some (0x09, 1) := by decide
theorem test_placed_read : seenStep (State.reset.withFetchWord 8 0x02) (fun t => t.mfault) = some (some (.unwritten .polls)) := by
  decide
theorem test_placed_event : seenStep (State.reset.withFetchWord 2 3) (fun t => (t.evt, t.irqPend)) = some (true, false) := by decide
theorem test_placed_port : seenStep (State.reset.withFetchWord 32 0x102F7341) (fun t => t.reader.records)
    = some [.read 0x2F73 0x41] := by decide
theorem test_table_phase : decodeTableWord 8 0x0E = some .rxInspect ∧ decodeTableWord 5 0x11 = some .halt := by decide
theorem test_table_event : decodeTableWord 2 3 = some .isr := by decide
theorem test_table_port : decodeTableWord 32 0x60000055 = some (.portFdata 0x55) := by decide

/-! ### A scenario line -/

/-- A line that names a phase PH does not hold is no line (R74). -/
theorem test_line_wrongPhase : refusalOf (runLine (.seq 0x08 [] []) tx) = some .scenarioNotEnabled := by decide

/-- A line whose answers are not those its step reads is no line (R74). -/
theorem test_line_wrongAnswers : refusalOf (runLine (.seq 0x0C [(0x2F73, 0x41)] []) (inPhase rx 0x0C [])) = some .scenarioAnswers := by
  decide

theorem test_line_text : Line.text (.seq 0x02 [(0x2F73, 0x41)] []) = "SEQ CAL_POLL_HIGH ; rd 0x2F73 = 0x41".toList := by decide

/-! ### Concrete states that meet the statements' hypotheses, each clause at a boundary -/

/-- A transmit machine in TX_WAIT after one TX_ARM. -/
def txArmed : State :=
  { inPhase tx 0x09 [] with trace := [.port (.writeFifo [0x05, 0x00, 0x01, 0xAA, 0x55]), .port (.strobe 0x35)] }

/-- A port-word reader inside a burst of `n` with `k` bytes read. -/
def inBurst (n : Byte) (k : Nat) : State :=
  { tx with reader := ⟨k + 1, some ⟨0, false, n, List.replicate k 0⟩, [], none⟩ }

theorem witness_CalPollResult_settled :
    let s : State := { inPhase tx 0x02 [0x41] with polls := some 7 }
    s.polls = some 7 ∧ s.answerAt 0 = s.par.marcSettled ∧ s.par.calPollLimit = some (7 + 1) := by decide

theorem witness_CalPollResult_timeout :
    let s : State := { inPhase tx1 0x05 [0x0F] with polls := some 0 }
    s.polls = some 0 ∧ s.answerAt 0 ≠ s.par.marcSettled ∧ s.par.calPollLimit = some (0 + 1) := by decide

theorem witness_CalPollResult_again :
    let s : State := { inPhase tx 0x02 [0x40] with polls := some 6 }
    s.polls = some 6 ∧ s.answerAt 0 ≠ s.par.marcSettled ∧ s.par.calPollLimit ≠ some (6 + 1) := by decide

theorem witness_CalBeginMidResult : { tx with calBase := some 0xFF }.calBase = some 0xFF := by decide

theorem witness_CalApplyResult_high :
    let s : State := { tx with calH := some ⟨6, 0, 0⟩, calM := some ⟨5, 9, 9⟩ }
    s.calH = some ⟨6, 0, 0⟩ ∧ s.calM = some ⟨5, 9, 9⟩ ∧ (5 : Byte).toNat < (6 : Byte).toNat := by decide

theorem witness_CalApplyResult_tie :
    let s : State := { tx with calH := some ⟨5, 0, 0⟩, calM := some ⟨5, 9, 9⟩ }
    s.calH = some ⟨5, 0, 0⟩ ∧ s.calM = some ⟨5, 9, 9⟩ ∧ (5 : Byte).toNat ≤ (5 : Byte).toNat := by decide

theorem witness_UnwrittenReadFaults :
    let s : State := { tx with calH := some ⟨5, 0, 0⟩ }
    tx.polls = none ∧ tx.calBase = none ∧ tx.calH = none ∧ tx.rxn = none ∧ s.calH ≠ none ∧ s.calM = none := by decide

theorem witness_TransmittedPacketIsLegal :
    seen .txArm tx State.trace = some (tx.trace ++ [.port (.writeFifo [0x05, 0x00, 0x01, 0xAA, 0x55]), .port (.strobe tx.par.cmdStx)]) := by
  decide

theorem witness_WaitResult : { inPhase rx 0x0D [] with evt := true }.evt = true := by decide

theorem witness_RxInspectResult_empty : (inPhase rx 0x0E [0]).answerAt 0 = 0 := by decide

theorem witness_RxInspectResult_error :
    let s : State := inPhase rx 0x0E [1, 0x31]
    s.answerAt 0 ≠ 0 ∧ (s.answerAt 1).toNat % 32 = s.par.fifoErrCode.toNat := by decide

theorem witness_RxInspectResult_ready :
    let s : State := inPhase rx 0x0E [255, 0x10]
    s.answerAt 0 ≠ 0 ∧ (s.answerAt 1).toNat % 32 ≠ s.par.fifoErrCode.toNat := by decide

theorem witness_RxDrainResult_above :
    let s : State := { rx with rxn := some 129 }
    s.rxn = some 129 ∧ s.par.rxBufCap < (129 : Byte).toNat := by decide

theorem witness_RxDrainResult_fits :
    let s : State := { rx with rxn := some 128 }
    s.rxn = some 128 ∧ (128 : Byte).toNat ≤ s.par.rxBufCap := by decide

theorem witness_HaltLeftOnlyByReset :
    let s : State := { inPhase tx 0x11 [] with script := [.event 2] }
    s.ph = 0x11#5 ∧ s.pick ≠ .event 0#2 ∧ s.pick ≠ .event 1#2 ∧ seenStep s State.ph = some 0x11 := by decide

theorem witness_ReservedPhaseResult : 0x12 ≤ (0x12#5).toNat ∧ 0x12 ≤ (0x1F#5).toNat := by decide

theorem witness_ResetResult : Instr.resetWdt = .resetWdt ∧ ResetCause.watchdog = .watchdog := by decide

theorem witness_PortSingleWordResult : tx.reader.invalid = none ∧ tx.reader.burst = none := by decide

theorem witness_PortBurstResult_more :
    let s : State := inBurst 255 0
    s.reader.invalid = none ∧ s.reader.burst = some ⟨0, false, 255, []⟩
      ∧ ([] : List Byte).length + 1 ≠ (255 : Byte).toNat := by decide

theorem witness_PortBurstResult_last :
    let s : State := inBurst 1 0
    s.reader.invalid = none ∧ s.reader.burst = some ⟨0, false, 1, []⟩
      ∧ ([] : List Byte).length + 1 = (1 : Byte).toNat := by decide

theorem witness_PortBurstResult_header :
    tx.reader.invalid = none ∧ tx.reader.burst = none ∧ (1 : Byte) ≠ 0 ∧ (255 : Byte) ≠ 0 := by decide

theorem witness_PortInvalidWordResult :
    (inBurst 2 1).reader.burst = some ⟨0, false, 2, [0]⟩ ∧ (inBurst 2 1).reader.invalid = none
      ∧ { tx with reader := ⟨0, none, [], some 0⟩ }.reader.invalid = some 0 := by decide

theorem witness_StepRunsDecodedInstruction_sequencer :
    let s : State := { tx with script := [.sequencer] }
    s.mfault = none ∧ s.pick = .sequencer ∧ s.irqPend = false := by decide

theorem witness_StepRunsDecodedInstruction_event :
    let s : State := { tx with script := [.event 3], irqPend := true }
    s.mfault = none ∧ s.pick = .event 3#2 ∧ s.irqPend = true := by decide

theorem witness_StepRunsDecodedInstruction_word :
    let s : State := { tx with script := [.word 0x102F7341] }
    s.mfault = none ∧ s.pick = .word 0x102F7341#32 ∧ decodePort 0x102F7341#32 = .ok (.portRead 0x2F73#16 0x41#8) := by decide

theorem witness_HoldsWhereNotEnabled_wait :
    let s : State := { inPhase tx 0x09 [] with script := [.sequencer] }
    s.mfault = none ∧ s.pick = .sequencer ∧ s.ph = 0x09#5 ∧ s.evt = false := by decide

theorem witness_HoldsWhereNotEnabled_pending :
    let s : State := { inPhase tx 0x08 [] with script := [.sequencer], irqPend := true }
    s.mfault = none ∧ s.pick = .sequencer ∧ s.irqPend = true := by decide

theorem witness_HoldsWhereNotEnabled_isr :
    let s : State := { tx with script := [.event 3] }
    s.mfault = none ∧ s.pick = .event 3#2 ∧ s.irqPend = false := by decide

theorem witness_NoStepAfterModelFault : { tx with mfault := some (.unwritten .rxn) }.mfault = some (.unwritten .rxn) := by decide

theorem witness_PlacedWordRunsNext : State.reset.mfault = none ∧ decodePort 0x60000055#32 = .ok (.portFdata 0x55#8) := by decide

/-- The invariant holds in a state that is not the reset state. -/
theorem witness_Inv_txArmed : txArmed.Inv where
  running := by decide
  phase := by decide
  fatalHalt := by decide
  pollsRange := by intro p k h; cases h
  pollsLeft := by decide
  baseWritten := by decide
  highWritten := by decide
  midWritten := by decide
  countWritten := by decide
  rxQuiet := by decide

/-- The invariant holds in a receive state with a count latched. -/
theorem witness_Inv_rxDrain : { inPhase rx 0x0F [] with rxn := some 1 }.Inv where
  running := by decide
  phase := by decide
  fatalHalt := by decide
  pollsRange := by intro p k h; cases h
  pollsLeft := by decide
  baseWritten := by decide
  highWritten := by decide
  midWritten := by decide
  countWritten := fun _ => ⟨1, rfl, by decide⟩
  rxQuiet := by decide

theorem witness_StepKeepsInvariant : seenStep { txArmed with script := [.sequencer] } State.ph = some 0x09 := by decide

theorem witness_RunningMachineNeverFaults : Reachable txArmed txArmed := .start

/-- The sequence law holds with a packet pending. -/
theorem witness_SequenceLaw : txArmed.SequenceLaw := ⟨1, by decide, by decide, by decide⟩

theorem witness_CheckpointLaw : txArmed.CheckpointLaw := by
  unfold State.CheckpointLaw
  decide

theorem witness_KickOnlyAtCheckpoints :
    (inPhase rx 0x0E [0]).answerAt 0 = 0 ∧ seen .rxInspect (inPhase rx 0x0E [0]) (fun t => t.trace.count .kick) = some 1
      ∧ seen .rxInspect (inPhase rx 0x0E [1, 0]) (fun t => t.trace.count .kick) = some 0 := by decide

theorem witness_TraceIsAppendOnly : seenStep { txArmed with script := [.event 2] } (fun t => t.trace.length) = some 3 := by decide

theorem witness_TraceIsNeverRead : seen .edge txArmed State.trace = some (txArmed.trace ++ [.edge]) := by decide

theorem witness_RegistersHaveOnlyTheirWriters :
    seen .txComplete txArmed (fun t => decide (t.seq ≠ txArmed.seq ∧ t.hb ≠ txArmed.hb ∧ t.ph ≠ txArmed.ph)) = some true := by decide

theorem witness_OnlySequencerUsesPort : (encode .isr).1 = .event ∧ (encode (.portFdata 0)).1 = .port := by decide

theorem witness_ModesAreExclusive : tx.par.mode = .tx ∧ rx.par.mode = .rx := by decide

theorem witness_StatusLayout : (inPhase rx 0x10 []).st = some .fifoError := by decide

theorem witness_DecodeEncodeRoundTrip : (Instr.portWfifo 1).wf = true ∧ (Instr.portReserved 0xFFFFFFFF).wf = true := by decide

theorem witness_EncodeDecodeRoundTrip : decode .port 0xFFFFFFFF = .ok (.portReserved 0xFFFFFFFF#32) := by decide

theorem witness_PortTraceRoundTrip : ∀ r ∈ [PortRecord.readFifo 1 [7], .writeFifo [8]], r.wf = true := by decide

theorem witness_ParseBuildRoundTrip : ([0x00, 0xFF] : List Byte).length ≤ tx.cfg.params.pktLenMax - 3 := by decide

theorem witness_ParseResult_error : (2 : Byte).toNat < 3 ∧ 128 < (129 : Byte).toNat ∧ ([0, 1] : List Byte).length + 1 < (4 : Byte).toNat := by
  decide

theorem witness_ParseResult_packet :
    (3 : Byte).toNat = 3 + ([] : List Byte).length ∧ (128 : Byte).toNat = 3 + (List.replicate 125 (0 : Byte)).length
      ∧ (128 : Byte).toNat ≤ 128 :=
  ⟨by decide, by rw [List.length_replicate]; decide, by decide⟩

theorem witness_ClassificationLaw :
    (0x31 : Byte).toNat % 32 = (0x11 : BitVec 5).toNat ∧ (0x32 : Byte).toNat % 32 ≠ (0x11 : BitVec 5).toNat ∧ (1 : Byte) ≠ 0 := by decide

/-- A machine about to calibrate, one unsettled read in the high run and none in the mid run. -/
def calibrating : State :=
  { inPhase tx 0x01 [0x20, 0x0F, 0x41, 7, 1, 2, 0x41, 3, 4, 5] with script := List.replicate 8 .sequencer }

theorem witness_CalibrationRun :
    let s : State := calibrating
    s.mfault = none ∧ s.irqPend = false ∧ s.ph = 0x01#5 ∧ (∀ x ∈ [(0x0F : Byte)], x ≠ s.par.marcSettled)
      ∧ s.par.calPollLimit = some 8 ∧ [(0x0F : Byte)].length < 8
      ∧ s.answers = 0x20 :: ([0x0F] ++ s.par.marcSettled :: 7 :: 1 :: 2 :: ([] ++ s.par.marcSettled :: 3 :: 4 :: 5 :: []))
      ∧ s.script = List.replicate ([(0x0F : Byte)].length + ([] : List Byte).length + 7) .sequencer ++ [] := by decide

theorem witness_CalibrationTimeoutRun :
    let s : State := { inPhase tx1 0x02 [0x0F] with polls := some 0, script := [.sequencer] }
    s.mfault = none ∧ s.irqPend = false ∧ s.ph = 0x02#5 ∧ s.polls = some 0 ∧ s.par.calPollLimit = some 1
      ∧ [(0x0F : Byte)].length = 1 ∧ (∀ x ∈ [(0x0F : Byte)], x ≠ s.par.marcSettled) ∧ s.answers = [0x0F] ++ []
      ∧ s.script = List.replicate 1 .sequencer ++ [] := by decide

theorem witness_SingleEdgeSingleService :
    let s : State := { txArmed with script := .event 2#2 :: .event 3#2 :: List.replicate 5 .sequencer }
    s.mfault = none ∧ s.evt = false ∧ s.irqPend = false ∧ s.ph = 0x09#5
      ∧ s.script = .event 2#2 :: .event 3#2 :: (List.replicate (5 + 0) .sequencer ++ []) := by decide

theorem witness_SingleEdgeSingleService_rx :
    let s : State := { inPhase rx 0x0D [] with script := .event 2#2 :: .event 3#2 :: List.replicate 6 .sequencer }
    s.mfault = none ∧ s.evt = false ∧ s.irqPend = false ∧ s.ph = 0x0D#5
      ∧ s.script = .event 2#2 :: .event 3#2 :: (List.replicate (5 + 1) .sequencer ++ []) := by decide

theorem witness_EdgesMergeInLatch :
    let s : State := { txArmed with script := [.event 2#2, .event 3#2] }
    s.mfault = none ∧ s.irqPend = false
      ∧ s.script = (List.replicate (0 + 1) [Turn.event 2#2, Turn.event 3#2]).flatten ++ [] := by decide

theorem witness_FifoErrorIsRecovered :
    let s : State := { inPhase rx 0x0E [1, 0xF1] with script := [.sequencer, .sequencer, .sequencer] }
    s.mfault = none ∧ s.irqPend = false ∧ s.ph = 0x0E#5 ∧ s.answerAt 0 ≠ 0
      ∧ (s.answerAt 1).toNat % 32 = s.par.fifoErrCode.toNat
      ∧ s.script = .sequencer :: .sequencer :: .sequencer :: [] := by decide

theorem witness_LostEdgeIsAbsorbed_tx :
    let s : State := { txArmed with evt := true, script := [.sequencer, .event 2#2, .event 3#2, .sequencer] }
    s.mfault = none ∧ s.irqPend = false ∧ s.evt = true ∧ s.ph = 0x09#5
      ∧ s.script = [.sequencer, .event 2#2, .event 3#2, .sequencer] ++ [] := by decide

theorem witness_LostEdgeIsAbsorbed_rxEmpty :
    let s : State := { inPhase rx 0x0D [0] with evt := true, script := [.sequencer, .event 2#2, .event 3#2, .sequencer] }
    s.mfault = none ∧ s.irqPend = false ∧ s.evt = true ∧ s.ph = 0x0D#5 ∧ s.answerAt 0 = 0
      ∧ s.script = [.sequencer, .event 2#2, .event 3#2, .sequencer] ++ [] := by decide

/-- The edge comes before RX_INSPECT, whose answers lead to RX_DRAIN. -/
theorem witness_LostEdgeIsAbsorbed_rxDrain :
    let s : State :=
      { inPhase rx 0x0D [1, 0x10, 9] with
        evt := true
        script := [.sequencer, .event 2#2, .event 3#2, .sequencer, .sequencer] }
    s.mfault = none ∧ s.irqPend = false ∧ s.evt = true ∧ s.ph = 0x0D#5 ∧ s.answerAt 0 ≠ 0
      ∧ (s.answerAt 1).toNat % 32 ≠ s.par.fifoErrCode.toNat
      ∧ s.script = [.sequencer, .event 2#2, .event 3#2, .sequencer, .sequencer] ++ [] := by decide

/-- The edge comes after RX_INSPECT, whose answers lead to RX_FLUSH. -/
theorem witness_LostEdgeIsAbsorbed_rxFlush :
    let s : State :=
      { inPhase rx 0x0D [255, 0x11] with
        evt := true
        script := [.sequencer, .sequencer, .event 2#2, .event 3#2, .sequencer] }
    s.mfault = none ∧ s.irqPend = false ∧ s.evt = true ∧ s.ph = 0x0D#5 ∧ s.answerAt 0 ≠ 0
      ∧ (s.answerAt 1).toNat % 32 = s.par.fifoErrCode.toNat
      ∧ s.script = [.sequencer, .sequencer, .event 2#2, .event 3#2, .sequencer] ++ [] := by decide

theorem witness_LostEdgeIsAbsorbed_rx :
    let s : State := { inPhase rx 0x10 [] with evt := true, script := [.event 2#2, .event 3#2, .sequencer] }
    s.mfault = none ∧ s.irqPend = false ∧ s.evt = true ∧ s.ph = 0x10#5
      ∧ s.script = [.event 2#2, .event 3#2, .sequencer] ++ [] := by decide

theorem witness_StaleEdgePassesWait :
    let s : State := { inPhase tx 0x08 [] with evt := true, script := [.sequencer, .sequencer] }
    s.mfault = none ∧ s.irqPend = false ∧ s.evt = true ∧ s.script = .sequencer :: .sequencer :: [] ∧ s.ph = 0x08#5 := by decide

theorem witness_OnlyAdmittedConfigurations : (x1 .tx (some 1)).admitted = true ∧ (x1 .tx (some 0)).admitted = false := by decide

/-- Words at the edges of the clauses: kind 1 and kind 6 with a bit of 27:24, kind 3 with a bit of 23:8; kind 2 with an address and
the reserved kind 7 are no such words. -/
theorem witness_MalformedPortWordIsReported_words :
    decodePort 0x11000000#32 = .error .reservedBits ∧ decodePort 0x68000000#32 = .error .reservedBits
      ∧ decodePort 0x30000100#32 = .error .addressBits ∧ decodePort 0x2FFFFF00#32 = .error .reservedBits
      ∧ decodePort 0x20FFFF00#32 = .ok (.portWrite 0xFFFF#16 0#8)
      ∧ decodePort 0x7F000000#32 = .ok (.portReserved 0x7F000000#32) := by decide

theorem witness_MalformedPortWordIsReported_outside :
    let s : State := { tx with script := [.word 0x31000035] }
    s.mfault = none ∧ s.pick = .word 0x31000035#32 ∧ decodePort 0x31000035#32 = .error .reservedBits
      ∧ s.reader.invalid = none ∧ s.reader.burst = none := by decide

theorem witness_MalformedPortWordIsReported_inside :
    let s : State := { inBurst 2 1 with script := [.word 0x60000100] }
    s.mfault = none ∧ s.pick = .word 0x60000100#32 ∧ decodePort 0x60000100#32 = .error .addressBits
      ∧ s.reader.invalid = none ∧ s.reader.burst = some ⟨0, false, 2, [0]⟩ := by decide

theorem witness_MalformedPortWordIsReported_after :
    let s : State := { tx with reader := ⟨0, none, [], some 0⟩, script := [.word 0x31000035] }
    s.mfault = none ∧ s.pick = .word 0x31000035#32 ∧ decodePort 0x31000035#32 = .error .reservedBits
      ∧ s.reader.invalid = some 0 := by decide

theorem witness_ShortBurstAtEndIsReported :
    (∀ r ∈ [PortRecord.strobe 0x34], r.wf = true) ∧ ([] : List Byte).length < (1 : Byte).toNat
      ∧ ([7] : List Byte).length < (2 : Byte).toNat := by decide

/-- A receive machine that was armed after its last checkpoint and has seen an edge. -/
def rxArmed : State :=
  { inPhase rx 0x0D [] with trace := [.kick, .port (.strobe 0x34), .edge] }

/-- The receive law holds in a wait. -/
theorem witness_ReceiveLaw : rxArmed.ReceiveLaw where
  beforeArm := by decide
  armed := by decide
  toDrain := fun h => absurd h (by decide)
  toFlush := fun h => absurd h (by decide)

/-- A receive machine in RX_FLUSH: the next turn of the sequencer ends the service. -/
def rxFlushing : State :=
  { inPhase rx 0x10 [] with
    script := [.sequencer]
    trace := [.kick, .port (.strobe 0x34), .port (.read 0x2FD7 5), .edge, .port (.read 0x2F73 0x11)] }

/-- The hypotheses of the law's last clause: a step that makes a Kick, from a state with the law. -/
theorem witness_ReceiveServiceLaw : rxFlushing.ReceiveLaw where
  beforeArm := by decide
  armed := by decide
  toDrain := fun h => absurd h (by decide)
  toFlush := fun _ => ⟨5, 0x11, by decide, by decide, by decide⟩

theorem witness_ReceiveServiceLaw_kick :
    rxFlushing.par.mode = .rx ∧ rxFlushing.ph ≠ 0x07#5 ∧ rxFlushing.trace.count .kick = 1
      ∧ seenStep rxFlushing (fun t => t.trace.count .kick) = some 2 := by decide

theorem witness_Inv_rxFlushing : rxFlushing.Inv where
  running := by decide
  phase := by decide
  fatalHalt := by decide
  pollsRange := by intro p k h; cases h
  pollsLeft := by decide
  baseWritten := by decide
  highWritten := by decide
  midWritten := by decide
  countWritten := by decide
  rxQuiet := by decide

end Sys2Proof.Tests
end

section
/-!
PROOFS, family 00_scope: the configurations that are instantiated (R8), and the invariant of the running machine, which every step
keeps (10_state.md R22, R27, R28, R32, R35), so that no run from it ends or faults (40_sequencer.md R85, R86).
-/

namespace Sys2Proof.Machine

/-! ### Which configurations are admitted (R8) -/

/-- R8(f) as the model tests it: a poll bound is INF or at least 1. -/
theorem pollLimit_ne_zero_iff (limit : Option Nat) : (limit != some 0) = true ↔ ∀ k, limit = some k → 1 ≤ k := by
  cases limit with
  | none => simp
  | some n => simp [Nat.one_le_iff_ne_zero]

/-- R8(d) as the model tests it: the payload of every value fits. -/
theorem payload_fits_iff (t : PayloadTable) (n : Nat) :
    t.fits n = true ↔ t.otherwise.length ≤ n ∧ ∀ e ∈ t.listed, e.2.length ≤ n := by
  simp [PayloadTable.fits]

/-- Admission is the conjunction of R8's constraints. -/
theorem admitted_iff (p : Params) : p.admitted = true ↔
    (3 ≤ p.pktLenMax ∧ p.pktLenMax < p.fifoCapacity ∧ p.fifoCapacity ≤ 255
      ∧ p.fifoCapacity ≤ p.rxBufCap ∧ p.rxBufCap ≤ 255
      ∧ p.payload.otherwise.length ≤ p.pktLenMax - 3 ∧ (∀ e ∈ p.payload.listed, e.2.length ≤ p.pktLenMax - 3)
      ∧ ∀ k, p.calPollLimit = some k → 1 ≤ k) := by
  simp only [Params.admitted, Bool.and_eq_true, decide_eq_true_eq, payload_fits_iff, pollLimit_ne_zero_iff, and_assoc]

/-- Parameters are instantiated, unchanged, exactly where they are admitted. -/
theorem instantiate_iff (p : Params) : (∃ c, Config.instantiate p = some c ∧ c.params = p) ↔ p.admitted = true := by
  constructor
  · rintro ⟨c, -, rfl⟩
    exact c.ok
  · intro h
    exact ⟨⟨p, h⟩, dif_pos h, rfl⟩

/-- Settles O54: instantiation is admission, and admission is the list of R8's constraints. -/
theorem onlyAdmittedConfigurations : Obligations.OnlyAdmittedConfigurations := fun p =>
  (instantiate_iff p).trans (admitted_iff p)

/-! ### Operations the invariant does not see -/

/-- A record in TRACE does not matter to the invariant. -/
theorem State.Inv.record {s : State} (hs : s.Inv) (r : Record) : (s.record r).Inv :=
  { hs with }

/-- What has been drawn does not matter to the invariant. -/
theorem State.Inv.consume {s : State} (hs : s.Inv) (k : Nat) : (s.consume k).Inv :=
  { hs with }

/-- Whose turn comes next does not matter to the invariant. -/
theorem State.Inv.endTurn {s : State} (hs : s.Inv) : s.endTurn.Inv :=
  { hs with }

/-- The latch does not matter to the invariant. -/
theorem State.Inv.clearEvt {s : State} (hs : s.Inv) : (clearEvt s).Inv :=
  { hs with }

/-- An edge leaves every register the invariant speaks of (R112). -/
theorem State.Inv.signalEdge {s : State} (hs : s.Inv) : (signalEdge s).Inv :=
  { hs with }

/-- The interrupt leaves every register the invariant speaks of (R114). -/
theorem State.Inv.takeInterrupt {s : State} (hs : s.Inv) : (takeInterrupt s).Inv :=
  { hs with }

/-- The trace reader touches nothing but itself. -/
theorem State.Inv.setReader {s : State} (hs : s.Inv) (r : PortReader) : { s with reader := r }.Inv :=
  { hs with }

theorem State.Inv.portRead {s : State} (hs : s.Inv) (a : Addr) : (portRead a s).2.Inv :=
  (hs.consume 1).record _

/-- Writing the profile appends records only. -/
theorem State.Inv.writeProfile {s : State} (hs : s.Inv) (l : List (Addr × Byte)) : (writeProfile l s).Inv := by
  rw [writeProfile_eq]
  exact { hs with }

theorem State.Inv.readTriple {s : State} (hs : s.Inv) : (readTriple s).2.Inv :=
  ((hs.portRead _).portRead _).portRead _

@[simp] theorem readTriple_ph (s : State) : (readTriple s).2.ph = s.ph := by
  simp [readTriple]

@[simp] theorem readTriple_calBase (s : State) : (readTriple s).2.calBase = s.calBase := by
  simp [readTriple]

@[simp] theorem readTriple_calH (s : State) : (readTriple s).2.calH = s.calH := by
  simp [readTriple]

theorem State.Inv.writeTriple {s : State} (hs : s.Inv) (w : CalResult) : (writeTriple w s).Inv :=
  ((hs.record _).record _).record _

/-- A drain or its flush draws and records only. -/
theorem State.Inv.drainAndReport {s : State} (hs : s.Inv) (n : Byte) : (drainAndReport n s).Inv := by
  unfold Machine.drainAndReport
  split
  · exact (hs.record _).record _
  · exact ((hs.consume _).record _).record _

@[simp] theorem drainAndReport_ph (n : Byte) (s : State) : (drainAndReport n s).ph = s.ph := by
  unfold drainAndReport
  split <;> rfl

/-! ### Writes that keep the invariant -/

/-- CAL_BASE may be written in any phase. -/
theorem State.Inv.writeCalBase {s : State} (hs : s.Inv) (b : Byte) : { s with calBase := some b }.Inv :=
  { hs with baseWritten := fun _ => rfl }

/-- CAL_H may be written in any phase. -/
theorem State.Inv.writeCalH {s : State} (hs : s.Inv) (w : CalResult) : { s with calH := some w }.Inv :=
  { hs with highWritten := fun _ => rfl }

/-- CAL_M may be written in any phase. -/
theorem State.Inv.writeCalM {s : State} (hs : s.Inv) (w : CalResult) : { s with calM := some w }.Inv :=
  { hs with midWritten := fun _ => rfl }

/-- A count that is not 0 may be written to RXN in any phase. -/
theorem State.Inv.writeRxn {s : State} (hs : s.Inv) {n : Byte} (hn : n ≠ 0x00#8) : { s with rxn := some n }.Inv :=
  { hs with countWritten := fun _ => ⟨n, rfl, hn⟩ }

/-- In MODE = TX, HB and SEQ are free. -/
theorem State.Inv.writeCounters {s : State} (hs : s.Inv) (hm : s.par.mode = .tx) (b : Bool) (q : SeqNum) :
    { s with hb := b, seq := q }.Inv :=
  { hs with rxQuiet := fun hr => absurd (hm.symm.trans hr) (by decide) }

/-- A count with reads left may be written to POLLS in any phase. -/
theorem State.Inv.writePollsLeft {s : State} (hs : s.Inv) {p : Nat} (hp : ∀ k, s.par.calPollLimit = some k → p < k) :
    { s with polls := some p }.Inv :=
  { hs with
    pollsRange := by rintro _ k ⟨⟩ hk; exact (hp k hk).le
    pollsLeft := fun _ => ⟨p, rfl, hp⟩ }

/-- A count within its range may be written to POLLS outside the poll phases. -/
theorem State.Inv.writePolls {s : State} (hs : s.Inv) {p : Nat} (hp : ∀ k, s.par.calPollLimit = some k → p ≤ k)
    (hh : s.ph ≠ Phase.calPollHigh) (hm : s.ph ≠ Phase.calPollMid) : { s with polls := some p }.Inv :=
  { hs with
    pollsRange := by rintro _ k ⟨⟩ hk; exact hp k hk
    pollsLeft := fun h => (h.elim hh hm).elim }

/-- Any poll bound leaves reads at the start of a run (R8(f), R95, R98). -/
theorem State.Inv.startPolls {s : State} (hs : s.Inv) : { s with polls := some 0 }.Inv :=
  hs.writePollsLeft fun _ hk => config_pollLimit_pos s.cfg hk

/-! ### Phase changes that keep the invariant -/

/-- POLLS holds a count with reads left (R32, R93). -/
def State.HasPollsLeft (s : State) : Prop :=
  ∃ p, s.polls = some p ∧ ∀ k, s.par.calPollLimit = some k → p < k

/-- A run starts with reads left, whatever the poll bound (R8(f), R95, R98). -/
theorem startPolls_left {s : State} (h : s.polls = some 0) : s.HasPollsLeft :=
  ⟨0, h, fun _ hk => config_pollLimit_pos s.cfg hk⟩

/-- What the working registers must hold for the phase of code `c`: what it reads, and what it passes on (R35). -/
def State.ReadyFor (s : State) (c : BitVec 5) : Prop :=
  match c.toNat with
  | 0x02 => s.calBase.isSome = true ∧ s.HasPollsLeft
  | 0x03 => s.calBase.isSome = true
  | 0x04 => s.calBase.isSome = true ∧ s.calH.isSome = true
  | 0x05 => s.calH.isSome = true ∧ s.HasPollsLeft
  | 0x06 => s.calH.isSome = true
  | 0x07 => s.calH.isSome = true ∧ s.calM.isSome = true
  | 0x0F => ∃ n, s.rxn = some n ∧ n ≠ 0x00#8
  | _ => True

/-! What each phase with a demand asks, as a rule. -/

theorem readyFor_calPollHigh {s : State} :
    s.ReadyFor Phase.calPollHigh ↔ s.calBase.isSome = true ∧ s.HasPollsLeft := Iff.rfl

theorem readyFor_calSnapHigh {s : State} : s.ReadyFor Phase.calSnapHigh ↔ s.calBase.isSome = true := Iff.rfl

theorem readyFor_calBeginMid {s : State} :
    s.ReadyFor Phase.calBeginMid ↔ s.calBase.isSome = true ∧ s.calH.isSome = true := Iff.rfl

theorem readyFor_calPollMid {s : State} :
    s.ReadyFor Phase.calPollMid ↔ s.calH.isSome = true ∧ s.HasPollsLeft := Iff.rfl

theorem readyFor_calSnapMid {s : State} : s.ReadyFor Phase.calSnapMid ↔ s.calH.isSome = true := Iff.rfl

theorem readyFor_calApply {s : State} :
    s.ReadyFor Phase.calApply ↔ s.calH.isSome = true ∧ s.calM.isSome = true := Iff.rfl

theorem readyFor_rxDrain {s : State} : s.ReadyFor Phase.rxDrain ↔ ∃ n, s.rxn = some n ∧ n ≠ 0x00#8 := Iff.rfl

/-- `ReadyFor` is the invariant's five clauses about working registers, asked of the code `c`. -/
theorem readyFor_iff (s : State) (c : BitVec 5) : s.ReadyFor c ↔
    (0x02 ≤ c.toNat ∧ c.toNat ≤ 0x04 → s.calBase.isSome = true)
      ∧ (0x04 ≤ c.toNat ∧ c.toNat ≤ 0x07 → s.calH.isSome = true)
      ∧ (c = Phase.calPollHigh ∨ c = Phase.calPollMid → s.HasPollsLeft)
      ∧ (c = Phase.calApply → s.calM.isSome = true)
      ∧ (c = Phase.rxDrain → ∃ n, s.rxn = some n ∧ n ≠ 0x00#8) := by
  unfold State.ReadyFor
  split
  case h_8 => refine iff_of_true trivial ⟨?_, ?_, ?_, ?_, ?_⟩ <;> intro h <;> simp_all [← BitVec.toNat_inj] <;> omega
  all_goals simp_all [← BitVec.toNat_inj]

/-- In a state with the invariant the registers are ready for the phase in PH. -/
theorem State.Inv.readyFor {s : State} (hs : s.Inv) {c : BitVec 5} (hp : s.ph = c) : s.ReadyFor c := by
  subst hp
  exact (readyFor_iff s s.ph).2 ⟨hs.baseWritten, hs.highWritten, hs.pollsLeft, hs.midWritten, hs.countWritten⟩

/-- PH may move from a phase that is not HALT to any other phase of the mode the registers are ready for. -/
theorem State.Inv.toPhase {s : State} (hs : s.Inv) {c : BitVec 5} (hfrom : s.ph ≠ Phase.halt) (hto : c ≠ Phase.halt)
    (hlegal : legalPhase s.par.mode c = true) (hready : s.ReadyFor c) : (s.toPhase c).Inv :=
  have ⟨hbase, hhigh, hpolls, hmid, hcount⟩ := (readyFor_iff s c).1 hready
  { hs with
    phase := hlegal
    fatalHalt := iff_of_false (fun hf => hfrom (hs.fatalHalt.1 hf)) hto
    pollsLeft := hpolls
    baseWritten := hbase
    highWritten := hhigh
    midWritten := hmid
    countWritten := hcount }

/-- A wait keeps the invariant where the phase after it does (R121, R128). -/
theorem State.Inv.awaitEvent {s : State} {after : BitVec 5} (hs : s.Inv) (hgo : (s.toPhase after).Inv) :
    (awaitEvent after s).Inv := by
  rcases awaitEvent_cases (c := after) (s := s) rfl with ⟨-, h⟩ | ⟨-, h⟩ <;> rw [h]
  · exact hgo
  · exact hs

/-- CalibrationTimeout leaves the invariant in HALT, with FATAL set (R28, R143). -/
theorem State.Inv.calTimeout {s : State} (hs : s.Inv) (r : CalRun) (n : Nat) : (raiseCalTimeout r n s).Inv where
  running := hs.running
  phase := rfl
  fatalHalt := iff_of_true rfl rfl
  pollsRange := hs.pollsRange
  pollsLeft := by simp
  baseWritten := by simp
  highWritten := by simp
  midWritten := by simp
  countWritten := by simp
  rxQuiet := hs.rxQuiet

/-- The phases 0x08 to 0x0B are those of MODE = TX (R22). -/
theorem legalPhase_transmit {m : Mode} {c : BitVec 5} (hc : 0x08 ≤ c.toNat ∧ c.toNat ≤ 0x0B) :
    legalPhase m c = true ↔ m = .tx := by
  cases m <;> simp [legalPhase, ← BitVec.toNat_inj] <;> omega

/-- The phases 0x0C to 0x10 are those of MODE = RX (R22). -/
theorem legalPhase_receive {m : Mode} {c : BitVec 5} (hc : 0x0C ≤ c.toNat ∧ c.toNat ≤ 0x10) :
    legalPhase m c = true ↔ m = .rx := by
  cases m <;> simp [legalPhase, ← BitVec.toNat_inj] <;> omega

/-- A phase of the transmit service shows MODE = TX. -/
theorem State.Inv.mode_tx {s : State} (hs : s.Inv) (hp : 0x08 ≤ s.ph.toNat ∧ s.ph.toNat ≤ 0x0B) : s.par.mode = .tx :=
  (legalPhase_transmit hp).1 hs.phase

/-- A phase of the receive service shows MODE = RX. -/
theorem State.Inv.mode_rx {s : State} (hs : s.Inv) (hp : 0x0C ≤ s.ph.toNat ∧ s.ph.toNat ≤ 0x10) : s.par.mode = .rx :=
  (legalPhase_receive hp).1 hs.phase

/-- PH may move freely within the transmit service: no phase of it reads a working register. -/
theorem State.Inv.toTransmit {s : State} (hs : s.Inv) {c : BitVec 5} (hfrom : 0x08 ≤ s.ph.toNat ∧ s.ph.toNat ≤ 0x0B)
    (hto : 0x08 ≤ c.toNat ∧ c.toNat ≤ 0x0B) : (s.toPhase c).Inv := by
  refine hs.toPhase ?_ ?_ ((legalPhase_transmit hto).2 (hs.mode_tx hfrom)) ?_
  · rintro h; simp [h] at hfrom
  · rintro rfl; simp at hto
  · rw [readyFor_iff]; simp [← BitVec.toNat_inj]; omega

/-- PH may move within the receive service to any phase the registers are ready for. -/
theorem State.Inv.toReceive {s : State} (hs : s.Inv) {c : BitVec 5} (hfrom : 0x0C ≤ s.ph.toNat ∧ s.ph.toNat ≤ 0x10)
    (hto : 0x0C ≤ c.toNat ∧ c.toNat ≤ 0x10) (hready : s.ReadyFor c) : (s.toPhase c).Inv := by
  refine hs.toPhase ?_ ?_ ((legalPhase_receive hto).2 (hs.mode_rx hfrom)) hready
  · rintro h; simp [h] at hfrom
  · rintro rfl; simp at hto

/-- Every end of a receive service keeps the invariant. -/
theorem State.Inv.endService {s : State} (hs : s.Inv) (hp : 0x0C ≤ s.ph.toNat ∧ s.ph.toNat ≤ 0x10) :
    (endService s).Inv :=
  (hs.clearEvt.record .kick).toReceive hp (by decide) trivial

/-- Every reset gives a state with the invariant, where no model fault is recorded (R160). -/
theorem applyReset_inv {s : State} (hm : s.mfault = none) (cause : ResetCause) : (applyReset cause s).Inv where
  running := hm
  phase := rfl
  fatalHalt := by simp
  pollsRange := by simp
  pollsLeft := by simp
  baseWritten := by simp
  highWritten := by simp
  midWritten := by simp
  countWritten := by simp
  rxQuiet := fun _ => ⟨rfl, rfl⟩

/-! ### Each phase keeps the invariant

A phase's result is its port operations, then its register writes, then its phase change: each proof applies the rules above in
that order. The radio's answers are those of an arbitrary state, so they are arbitrary. -/

/-- Instruction `i`, run with code `c` in PH, keeps the invariant. -/
def KeepsInv (i : Instr) (c : BitVec 5) : Prop :=
  ∀ s t : State, s.Inv → s.ph = c → exec i s = .next t → t.Inv

theorem config_keepsInv : KeepsInv .config Phase.config := by
  rintro s _ hs hp ⟨⟩
  refine ((hs.writeProfile _).record _).toPhase ?_ (by decide) rfl trivial
  simp [writeProfile_eq, hp]

theorem calBeginHigh_keepsInv : KeepsInv .calBeginHigh Phase.calBeginHigh := by
  rintro s _ hs hp ⟨⟩
  have hread := (hs.record (.port (.write s.par.aVcoCap 0x00#8))).portRead s.par.aCalCtrl
  exact (((hread.record _).record _).writeCalBase _).startPolls.toPhase (by simp [hp]) (by decide) rfl
    (readyFor_calPollHigh.2 ⟨rfl, startPolls_left rfl⟩)

theorem ownPhase_poll (r : CalRun) : ownPhase r = Phase.calPollHigh ∨ ownPhase r = Phase.calPollMid := by
  cases r <;> decide

theorem ownPhase_ne_halt (r : CalRun) : ownPhase r ≠ Phase.halt := by
  cases r <;> decide

theorem legalPhase_ownPhase (m : Mode) (r : CalRun) : legalPhase m (ownPhase r) = true := by
  cases r <;> rfl

theorem snapPhase_not_poll (r : CalRun) : snapPhase r ≠ Phase.calPollHigh ∧ snapPhase r ≠ Phase.calPollMid := by
  cases r <;> decide

theorem snapPhase_ne_halt (r : CalRun) : snapPhase r ≠ Phase.halt := by
  cases r <;> decide

theorem legalPhase_snapPhase (m : Mode) (r : CalRun) : legalPhase m (snapPhase r) = true := by
  cases r <;> rfl

/-- The snapshot phase of a run needs nothing its poll phase does not. -/
theorem readyFor_snapPhase {s : State} {r : CalRun} (h : s.ReadyFor (ownPhase r)) : s.ReadyFor (snapPhase r) := by
  cases r with
  | high => exact (readyFor_calPollHigh.1 h).1
  | mid => exact (readyFor_calPollMid.1 h).1

/-- The state of a poll after its read, with the read counted (R93). -/
def State.polled (s : State) (n : Nat) : State :=
  { (portRead s.par.aMarcState s).2 with polls := some (n + 1) }

/-- The three ends of a poll (R93): settled, timed out at the last read, or polling again. -/
theorem calPoll_cases {s : State} {n : Nat} (r : CalRun) (hn : s.polls = some n) :
    (s.answerAt 0 = s.par.marcSettled ∧ calPoll r s = (s.polled n).toPhase (snapPhase r))
      ∨ (s.answerAt 0 ≠ s.par.marcSettled ∧ s.par.calPollLimit = some (n + 1)
        ∧ calPoll r s = raiseCalTimeout r (n + 1) (s.polled n))
      ∨ (s.answerAt 0 ≠ s.par.marcSettled ∧ s.par.calPollLimit ≠ some (n + 1)
        ∧ calPoll r s = (s.polled n).toPhase (ownPhase r)) := by
  have hpoll : calPoll r s =
      if s.answerAt 0 = s.par.marcSettled then (s.polled n).toPhase (snapPhase r)
      else if s.par.calPollLimit = some (n + 1) then raiseCalTimeout r (n + 1) (s.polled n)
      else (s.polled n).toPhase (ownPhase r) := by
    simp only [calPoll, portRead_snd, State.record_polls, State.consume_polls, hn, readWorking_some]
    rfl
  by_cases hsettled : s.answerAt 0 = s.par.marcSettled
  · exact .inl ⟨hsettled, hpoll.trans (if_pos hsettled)⟩
  · rw [if_neg hsettled] at hpoll
    by_cases hlast : s.par.calPollLimit = some (n + 1)
    · exact .inr (.inl ⟨hsettled, hlast, hpoll.trans (if_pos hlast)⟩)
    · exact .inr (.inr ⟨hsettled, hlast, hpoll.trans (if_neg hlast)⟩)

/-- A poll keeps the invariant: a settled run's snapshot is ready, the last read goes to HALT, any other leaves reads. -/
theorem State.Inv.calPoll {s : State} {r : CalRun} (hs : s.Inv) (hp : s.ph = ownPhase r) : (calPoll r s).Inv := by
  obtain ⟨n, hn, hleft⟩ := hs.pollsLeft (hp ▸ ownPhase_poll r)
  have hread := hs.portRead s.par.aMarcState
  have hfrom : s.ph ≠ Phase.halt := hp ▸ ownPhase_ne_halt r
  rcases calPoll_cases r hn with ⟨-, h⟩ | ⟨-, -, h⟩ | ⟨-, hlimit, h⟩ <;> rw [h]
  · have hready := readyFor_snapPhase (hread.readyFor hp)
    have hsnap := hread.toPhase hfrom (snapPhase_ne_halt r) (legalPhase_snapPhase _ r) hready
    exact hsnap.writePolls hleft (snapPhase_not_poll r).1 (snapPhase_not_poll r).2
  · exact (hread.calTimeout r (n + 1)).writePolls hleft (by simp) (by simp)
  · have hmore : ∀ k, s.par.calPollLimit = some k → n + 1 < k := fun k hk =>
      lt_of_le_of_ne (hleft k hk) fun h => hlimit (h ▸ hk)
    have hpolled : (s.polled n).Inv := hread.writePollsLeft hmore
    exact hpolled.toPhase hfrom (ownPhase_ne_halt r) (legalPhase_ownPhase _ r) (hpolled.readyFor hp)

theorem calPollHigh_keepsInv : KeepsInv .calPollHigh Phase.calPollHigh := by
  rintro s _ hs hp ⟨⟩
  exact hs.calPoll hp

theorem calPollMid_keepsInv : KeepsInv .calPollMid Phase.calPollMid := by
  rintro s _ hs hp ⟨⟩
  exact hs.calPoll hp

theorem calSnapHigh_keepsInv : KeepsInv .calSnapHigh Phase.calSnapHigh := by
  rintro s _ hs hp ⟨⟩
  have hbase := readyFor_calSnapHigh.1 (hs.readyFor hp)
  exact (hs.readTriple.writeCalH _).toPhase (by simp [hp]) (by decide) rfl
    (readyFor_calBeginMid.2 ⟨by simp [hbase], rfl⟩)

theorem calBeginMid_keepsInv : KeepsInv .calBeginMid Phase.calBeginMid := by
  rintro s _ hs hp ⟨⟩
  obtain ⟨hbase, hhigh⟩ := readyFor_calBeginMid.1 (hs.readyFor hp)
  obtain ⟨b, hb⟩ := Option.isSome_iff_exists.1 hbase
  rw [portWrite_eq, State.record_calBase, hb, readWorking_some]
  exact (((hs.record _).record _).record _).startPolls.toPhase (by simp [hp]) (by decide) rfl
    (readyFor_calPollMid.2 ⟨by simp [hhigh], startPolls_left rfl⟩)

theorem calSnapMid_keepsInv : KeepsInv .calSnapMid Phase.calSnapMid := by
  rintro s _ hs hp ⟨⟩
  have hhigh := readyFor_calSnapMid.1 (hs.readyFor hp)
  exact (hs.readTriple.writeCalM _).toPhase (by simp [hp]) (by decide) rfl
    (readyFor_calApply.2 ⟨by simp [hhigh], rfl⟩)

theorem armPhase_ne_halt (m : Mode) : armPhase m ≠ Phase.halt := by
  cases m <;> decide

theorem legalPhase_armPhase (m : Mode) : legalPhase m (armPhase m) = true := by
  cases m <;> rfl

/-- No arm phase reads a working register. -/
theorem readyFor_armPhase (s : State) (m : Mode) : s.ReadyFor (armPhase m) := by
  cases m <;> trivial

theorem calApply_keepsInv : KeepsInv .calApply Phase.calApply := by
  rintro s _ hs hp ⟨⟩
  obtain ⟨hhigh, hmid⟩ := readyFor_calApply.1 (hs.readyFor hp)
  obtain ⟨h, hh⟩ := Option.isSome_iff_exists.1 hhigh
  obtain ⟨m, hm⟩ := Option.isSome_iff_exists.1 hmid
  rw [hh, hm, readWorking_some, readWorking_some]
  exact ((hs.writeTriple _).record _).toPhase (by simp [writeTriple, hp]) (armPhase_ne_halt _) (legalPhase_armPhase _)
    (readyFor_armPhase _ _)

theorem txArm_keepsInv : KeepsInv .txArm Phase.txArm := by
  rintro s _ hs hp ⟨⟩
  exact ((hs.record _).record _).toTransmit (by simp [hp]) (by decide)

theorem txWait_keepsInv : KeepsInv .txWait Phase.txWait := by
  rintro s _ hs hp ⟨⟩
  exact hs.awaitEvent (hs.toTransmit (by simp [hp]) (by decide))

theorem txComplete_keepsInv : KeepsInv .txComplete Phase.txComplete := by
  rintro s _ hs hp ⟨⟩
  exact (hs.clearEvt.writeCounters (hs.mode_tx (by simp [hp])) _ _).toTransmit (by simp [hp]) (by decide)

theorem txDelay_keepsInv : KeepsInv .txDelay Phase.txDelay := by
  rintro s _ hs hp ⟨⟩
  exact (hs.record _).toTransmit (by simp [hp]) (by decide)

theorem rxArm_keepsInv : KeepsInv .rxArm Phase.rxArm := by
  rintro s _ hs hp ⟨⟩
  exact (hs.record _).toReceive (by simp [hp]) (by decide) trivial

theorem rxWait_keepsInv : KeepsInv .rxWait Phase.rxWait := by
  rintro s _ hs hp ⟨⟩
  exact hs.awaitEvent (hs.toReceive (by simp [hp]) (by decide) trivial)

/-- The state of an inspection after the reads it makes where the count is not 0 (R129). -/
def State.inspected (s : State) : State :=
  (portRead s.par.aMarcState (portRead s.par.aNumRxBytes s).2).2

/-- The three ends of an inspection (R129): nothing received, the FIFO-error status, or a count to drain. -/
theorem exec_rxInspect_cases (s : State) :
    (s.answerAt 0 = 0x00#8 ∧ exec .rxInspect s = .next (endService (portRead s.par.aNumRxBytes s).2))
      ∨ (s.answerAt 0 ≠ 0x00#8 ∧ (s.answerAt 1).extractLsb' 0 5 = s.par.fifoErrCode
        ∧ exec .rxInspect s = .next (s.inspected.toPhase Phase.rxFlush))
      ∨ (s.answerAt 0 ≠ 0x00#8 ∧ (s.answerAt 1).extractLsb' 0 5 ≠ s.par.fifoErrCode
        ∧ exec .rxInspect s = .next ({ s.inspected with rxn := some (s.answerAt 0) }.toPhase Phase.rxDrain)) := by
  have hexec : exec .rxInspect s = .next (if s.answerAt 0 = 0x00#8 then endService (portRead s.par.aNumRxBytes s).2
      else afterVerdict (classifyRx s.par.fifoErrCode (s.answerAt 1) (s.answerAt 0)) s.inspected) := by
    rw [← answerAt_consume s 1 0]; rfl
  rcases classifyRx_cases s.par.fifoErrCode (s.answerAt 1) (s.answerAt 0) with ⟨hn, -⟩ | ⟨hn, he, hv⟩ | ⟨hn, he, hv⟩
  · rw [if_pos hn] at hexec
    exact .inl ⟨hn, hexec⟩
  · rw [if_neg hn, hv] at hexec
    exact .inr (.inl ⟨hn, he, hexec⟩)
  · rw [if_neg hn, hv] at hexec
    exact .inr (.inr ⟨hn, he, hexec⟩)

theorem rxInspect_keepsInv : KeepsInv .rxInspect Phase.rxInspect := by
  intro s t hs hp h
  have hread := hs.portRead s.par.aNumRxBytes
  have hboth : s.inspected.Inv := hread.portRead _
  rcases exec_rxInspect_cases s with ⟨-, he⟩ | ⟨-, -, he⟩ | ⟨hn, -, he⟩ <;> cases he.symm.trans h
  · exact hread.endService (by simp [hp])
  · exact hboth.toReceive (by simp [State.inspected, hp]) (by decide) trivial
  · exact (hboth.writeRxn hn).toReceive (by simp [State.inspected, hp]) (by decide) (readyFor_rxDrain.2 ⟨_, rfl, hn⟩)

theorem rxDrain_keepsInv : KeepsInv .rxDrain Phase.rxDrain := by
  rintro s _ hs hp ⟨⟩
  obtain ⟨n, hn, -⟩ := readyFor_rxDrain.1 (hs.readyFor hp)
  rw [hn, readWorking_some]
  exact (hs.drainAndReport n).endService (by simp [hp])

theorem rxFlush_keepsInv : KeepsInv .rxFlush Phase.rxFlush := by
  rintro s _ hs hp ⟨⟩
  exact ((hs.record _).record _).endService (by simp [hp])

theorem halt_keepsInv : KeepsInv .halt Phase.halt := by
  rintro s _ hs - ⟨⟩
  exact hs

/-- No phase of a mode is a reserved code (R64). -/
theorem legalPhase_le_halt {m : Mode} {c : BitVec 5} (h : legalPhase m c = true) : c.toNat ≤ 0x11 := by
  cases m <;> simp [legalPhase, ← BitVec.toNat_inj] at h <;> omega

/-- The 18 codes of R63, one by one. -/
theorem phase_codes : ∀ c : BitVec 5, c.toNat ≤ 0x11 →
    c = Phase.config ∨ c = Phase.calBeginHigh ∨ c = Phase.calPollHigh ∨ c = Phase.calSnapHigh ∨ c = Phase.calBeginMid
      ∨ c = Phase.calPollMid ∨ c = Phase.calSnapMid ∨ c = Phase.calApply ∨ c = Phase.txArm ∨ c = Phase.txWait
      ∨ c = Phase.txComplete ∨ c = Phase.txDelay ∨ c = Phase.rxArm ∨ c = Phase.rxWait ∨ c = Phase.rxInspect
      ∨ c = Phase.rxDrain ∨ c = Phase.rxFlush ∨ c = Phase.halt := by
  decide

/-- The instruction of every phase of a mode keeps the invariant. -/
theorem decodePhase_keepsInv {m : Mode} {c : BitVec 5} (h : legalPhase m c = true) : KeepsInv (decodePhase c) c := by
  rcases phase_codes c (legalPhase_le_halt h) with rfl | rfl | rfl | rfl | rfl | rfl | rfl | rfl | rfl | rfl | rfl | rfl | rfl
    | rfl | rfl | rfl | rfl | rfl
  · exact config_keepsInv
  · exact calBeginHigh_keepsInv
  · exact calPollHigh_keepsInv
  · exact calSnapHigh_keepsInv
  · exact calBeginMid_keepsInv
  · exact calPollMid_keepsInv
  · exact calSnapMid_keepsInv
  · exact calApply_keepsInv
  · exact txArm_keepsInv
  · exact txWait_keepsInv
  · exact txComplete_keepsInv
  · exact txDelay_keepsInv
  · exact rxArm_keepsInv
  · exact rxWait_keepsInv
  · exact rxInspect_keepsInv
  · exact rxDrain_keepsInv
  · exact rxFlush_keepsInv
  · exact halt_keepsInv

/-! ### Every step keeps the invariant, and a run from it goes on -/

/-- Settles O30, by whose turn it was: the sequencer's phase keeps the invariant, a reset establishes it anew, and every other
turn leaves the part it speaks of. -/
theorem stepKeepsInvariant : Obligations.StepKeepsInvariant := by
  intro s t hs hstep
  have hturn := hs.endTurn
  obtain ⟨-, rfl | ⟨-, -, hexec⟩ | ⟨-, rfl⟩ | ⟨-, -, rfl⟩ | ⟨-, rfl⟩ | ⟨-, rfl⟩ | ⟨_, _, -, rfl⟩⟩ := step_turns hstep
  · exact hturn
  · exact decodePhase_keepsInv hs.phase _ _ hturn rfl hexec
  · exact hturn.signalEdge
  · exact hturn.takeInterrupt
  · exact applyReset_inv hturn.running _
  · exact applyReset_inv hturn.running _
  · exact hturn.setReader _

/-- A state without a model fault has a next state, whoever has the turn. -/
theorem step_next {s : State} (hm : s.mfault = none) : ∃ t, step s = .next t := by
  cases hf : s.fetch s.pick with
  | none => exact ⟨s.endTurn.readUnfetched s.pick, by simp [step, hm, hf]⟩
  | some i =>
    cases hs : s.mayStep s.pick with
    | true =>
      rw [step_runs hm hf hs]
      exact exec_next i s.endTurn
    | false => exact ⟨s.endTurn, step_holds hm hf hs⟩

/-- The invariant holds of every state reached from a state with it. -/
theorem Reachable.inv {s t : State} (hr : Reachable s t) (hs : s.Inv) : t.Inv := by
  induction hr with
  | start => exact hs
  | step _ hstep ih => exact stepKeepsInvariant _ _ ih hstep

/-- Settles O31: the invariant holds of every reached state, so none has a model fault and each has a next. -/
theorem runningMachineNeverFaults : Obligations.RunningMachineNeverFaults := by
  intro s t hs hr
  have ht : t.Inv := hr.inv hs
  exact ⟨not_not_intro ht.running, step_next ht.running⟩

end Sys2Proof.Machine
end

section
/-!
PROOFS, family 10_state: the elements of the state. Every instruction's result is built from a few operations (`SameOps`),
whatever TRACE holds; from that one fact follow who writes what (10_state.md R18 to R33), that TRACE only grows and that no rule
reads it (R36). Then the views ST (R22) and STATUS (R37), and the model faults (R35, R38).
-/

namespace Sys2Proof.Machine

/-! ### The operations an instruction is built from -/

/-- The two reset events (R160). -/
def IsReset (i : Instr) : Prop :=
  i = .resetPor ∨ i = .resetWdt

/-- `SameOps i s tr t t'`: begun in `s`, and begun in `s` with `tr` in TRACE, instruction `i` has come to `t` and to `t'` by the
same operations with the same values. An operation that writes a register is open only to the instructions the spec names. -/
inductive SameOps (i : Instr) (s : State) (tr : List Record) : State → State → Prop
  | start : SameOps i s tr s { s with trace := tr }
  | record {t t' : State} (h : SameOps i s tr t t') (r : Record) : SameOps i s tr (t.record r) (t'.record r)
  | consume {t t' : State} (h : SameOps i s tr t t') (k : Nat) : SameOps i s tr (t.consume k) (t'.consume k)
  | toPhase {t t' : State} (h : SameOps i s tr t t') (hi : (encode i).1 = .phase) (c : BitVec 5) :
      SameOps i s tr (t.toPhase c) (t'.toPhase c)
  | clearEvt {t t' : State} (h : SameOps i s tr t t')
      (hi : i = .txComplete ∨ i = .rxInspect ∨ i = .rxDrain ∨ i = .rxFlush) :
      SameOps i s tr (clearEvt t) (clearEvt t')
  | writeCounters {t t' : State} (h : SameOps i s tr t t') (hi : i = .txComplete) (b : Bool) (q : SeqNum) :
      SameOps i s tr { t with hb := b, seq := q } { t' with hb := b, seq := q }
  | setFatal {t t' : State} (h : SameOps i s tr t t') (hi : i = .calPollHigh ∨ i = .calPollMid) :
      SameOps i s tr { t with fatal := true } { t' with fatal := true }
  | writeCalBase {t t' : State} (h : SameOps i s tr t t') (hi : i = .calBeginHigh) (b : Byte) :
      SameOps i s tr { t with calBase := some b } { t' with calBase := some b }
  | writeCalH {t t' : State} (h : SameOps i s tr t t') (hi : i = .calSnapHigh) (w : CalResult) :
      SameOps i s tr { t with calH := some w } { t' with calH := some w }
  | writeCalM {t t' : State} (h : SameOps i s tr t t') (hi : i = .calSnapMid) (w : CalResult) :
      SameOps i s tr { t with calM := some w } { t' with calM := some w }
  | writePolls {t t' : State} (h : SameOps i s tr t t')
      (hi : i = .calBeginHigh ∨ i = .calBeginMid ∨ i = .calPollHigh ∨ i = .calPollMid) (n : Nat) :
      SameOps i s tr { t with polls := some n } { t' with polls := some n }
  | writeRxn {t t' : State} (h : SameOps i s tr t t') (hi : i = .rxInspect) (n : Byte) :
      SameOps i s tr { t with rxn := some n } { t' with rxn := some n }
  | modelFault {t t' : State} (h : SameOps i s tr t t') (r : ModelFault) :
      SameOps i s tr (raiseModelFault r t) (raiseModelFault r t')
  | signalEdge {t t' : State} (h : SameOps i s tr t t') (hi : i = .edge) : SameOps i s tr (signalEdge t) (signalEdge t')
  | takeInterrupt {t t' : State} (h : SameOps i s tr t t') (hi : i = .isr) :
      SameOps i s tr (takeInterrupt t) (takeInterrupt t')
  | reset {t t' : State} (h : SameOps i s tr t t') (hi : IsReset i) (c : ResetCause) :
      SameOps i s tr (applyReset c t) (applyReset c t')
  | readPortWord {t t' : State} (h : SameOps i s tr t t') (hi : (encode i).1 = .port) (p : PortWord) :
      SameOps i s tr (t.readPortWord p) (t'.readPortWord p)

section
variable {i : Instr} {s t t' : State} {tr : List Record}

/-! The shared operations, as sequences of those. -/

theorem SameOps.writeProfile (h : SameOps i s tr t t') (l : List (Addr × Byte)) :
    SameOps i s tr (writeProfile l t) (writeProfile l t') := by
  induction l generalizing t t' with
  | nil => exact h
  | cons e l ih => exact ih (h.record (.port (.write e.1 e.2)))

theorem SameOps.endService (h : SameOps i s tr t t')
    (hi : i = .rxInspect ∨ i = .rxDrain ∨ i = .rxFlush) : SameOps i s tr (endService t) (endService t') :=
  ((h.clearEvt (.inr hi)).record .kick).toPhase (by rcases hi with rfl | rfl | rfl <;> rfl) _

/-- A working register's read is the same in both runs where both hold the same value. -/
theorem SameOps.readWorking {α : Type} (h : SameOps i s tr t t') (name : WorkingReg) (v : Option α) {go go' : α → State}
    (hgo : ∀ x, SameOps i s tr (go x) (go' x)) :
    SameOps i s tr (readWorking name v t go) (readWorking name v t' go') := by
  cases v with
  | some x => exact hgo x
  | none => exact h.modelFault _

/-- A branch is the same in both runs where its condition is. -/
theorem SameOps.ite {c : Prop} [Decidable c] {u u' : State} (ht : SameOps i s tr t t') (hu : SameOps i s tr u u') :
    SameOps i s tr (if c then t else u) (if c then t' else u') := by
  by_cases hc : c
  · rw [if_pos hc, if_pos hc]; exact ht
  · rw [if_neg hc, if_neg hc]; exact hu

theorem SameOps.calPoll (r : CalRun) (hi : i = .calPollHigh ∨ i = .calPollMid) :
    SameOps i s tr (calPoll r s) (calPoll r { s with trace := tr }) := by
  have hphase : (encode i).1 = .phase := by rcases hi with rfl | rfl <;> rfl
  have hstart : SameOps i s tr s { s with trace := tr } := .start
  have hread := (hstart.consume 1).record (.port (.read s.par.aMarcState (s.answerAt 0)))
  refine hread.readWorking .polls s.polls fun n => ?_
  have hcounted := hread.writePolls (.inr (.inr hi)) (n + 1)
  exact .ite (hcounted.toPhase hphase _) (.ite (((hcounted.setFatal hi).record _).toPhase hphase _) (hcounted.toPhase hphase _))

theorem SameOps.awaitEvent (hi : (encode i).1 = .phase) (c : BitVec 5) :
    SameOps i s tr (awaitEvent c s) (awaitEvent c { s with trace := tr }) :=
  .ite (SameOps.start.toPhase hi c) .start

/-- The three result registers are read with the same answers. -/
theorem SameOps.readTriple : SameOps i s tr (readTriple s).2 (readTriple { s with trace := tr }).2 :=
  (((((SameOps.start.consume 1).record _).consume 1).record _).consume 1).record _

theorem SameOps.drainAndReport (n : Byte) :
    SameOps i s tr (drainAndReport n s) (drainAndReport n { s with trace := tr }) :=
  .ite ((SameOps.start.record _).record _) (((SameOps.start.consume _).record _).record _)

theorem SameOps.afterVerdict (h : SameOps i s tr t t') (hi : i = .rxInspect) (v : Verdict) :
    SameOps i s tr (afterVerdict v t) (afterVerdict v t') := by
  have hphase : (encode i).1 = .phase := by rw [hi]; rfl
  cases v with
  | empty => exact h.endService (.inl hi)
  | error => exact h.toPhase hphase _
  | ready n => exact (h.writeRxn hi n).toPhase hphase _

end

/-- Every instruction is built from the operations open to it, and TRACE chooses none of them. -/
theorem exec_sameOps (i : Instr) (s : State) (tr : List Record) :
    ∃ t t', exec i s = .next t ∧ exec i { s with trace := tr } = .next t' ∧ SameOps i s tr t t' := by
  have h : SameOps i s tr s { s with trace := tr } := .start
  cases i with
  | config => exact ⟨_, _, rfl, rfl, ((h.writeProfile _).record _).toPhase rfl _⟩
  | calBeginHigh =>
    have hzeroed := h.record (.port (.write s.par.aVcoCap 0x00#8))
    have hread := (hzeroed.consume 1).record (.port (.read s.par.aCalCtrl (s.answerAt 0)))
    exact ⟨_, _, rfl, rfl, ((((hread.record _).record _).writeCalBase rfl _).writePolls (.inl rfl) 0).toPhase rfl _⟩
  | calPollHigh => exact ⟨_, _, rfl, rfl, .calPoll .high (.inl rfl)⟩
  | calSnapHigh => exact ⟨_, _, rfl, rfl, (SameOps.readTriple.writeCalH rfl _).toPhase rfl _⟩
  | calBeginMid =>
    have hzeroed := h.record (.port (.write s.par.aVcoCap 0x00#8))
    exact ⟨_, _, rfl, rfl, hzeroed.readWorking .calBase s.calBase fun b =>
      (((hzeroed.record _).record _).writePolls (.inr (.inl rfl)) 0).toPhase rfl _⟩
  | calPollMid => exact ⟨_, _, rfl, rfl, .calPoll .mid (.inr rfl)⟩
  | calSnapMid => exact ⟨_, _, rfl, rfl, (SameOps.readTriple.writeCalM rfl _).toPhase rfl _⟩
  | calApply =>
    exact ⟨_, _, rfl, rfl, h.readWorking .calH s.calH fun _ => h.readWorking .calM s.calM fun _ =>
      ((((h.record _).record _).record _).record _).toPhase rfl _⟩
  | txArm => exact ⟨_, _, rfl, rfl, ((h.record _).record _).toPhase rfl _⟩
  | txWait => exact ⟨_, _, rfl, rfl, .awaitEvent rfl _⟩
  | txComplete => exact ⟨_, _, rfl, rfl, ((h.clearEvt (.inl rfl)).writeCounters rfl _ _).toPhase rfl _⟩
  | txDelay | rxArm => exact ⟨_, _, rfl, rfl, (h.record _).toPhase rfl _⟩
  | rxWait => exact ⟨_, _, rfl, rfl, .awaitEvent rfl _⟩
  | rxInspect =>
    have hread := (h.consume 1).record (.port (.read s.par.aNumRxBytes (s.answerAt 0)))
    exact ⟨_, _, rfl, rfl, .ite (hread.afterVerdict rfl .empty) (((hread.consume 1).record _).afterVerdict rfl _)⟩
  | rxDrain =>
    exact ⟨_, _, rfl, rfl, h.readWorking .rxn s.rxn fun n => (SameOps.drainAndReport n).endService (.inr (.inl rfl))⟩
  | rxFlush => exact ⟨_, _, rfl, rfl, ((h.record _).record _).endService (.inr (.inr rfl))⟩
  | halt => exact ⟨_, _, rfl, rfl, h⟩
  | reserved12 | reserved14 | reserved18 => exact ⟨_, _, rfl, rfl, h.modelFault _⟩
  | resetPor => exact ⟨_, _, rfl, rfl, h.reset (.inl rfl) _⟩
  | resetWdt => exact ⟨_, _, rfl, rfl, h.reset (.inr rfl) _⟩
  | edge => exact ⟨_, _, rfl, rfl, h.signalEdge rfl⟩
  | isr => exact ⟨_, _, rfl, rfl, h.takeInterrupt rfl⟩
  | portRead | portWrite | portStrobe | portRfifo | portWfifo | portFdata | portReserved =>
    exact ⟨_, _, rfl, rfl, h.readPortWord rfl _⟩

/-! ### TRACE (R36) -/

/-- Both runs append the same records, and agree in everything else. -/
theorem SameOps.appends {i : Instr} {s t t' : State} {tr : List Record} (h : SameOps i s tr t t') :
    ∃ new, t.trace = s.trace ++ new ∧ t' = { t with trace := tr ++ new } := by
  induction h with
  | start => exact ⟨[], by simp⟩
  | record _ r ih =>
    obtain ⟨new, htrace, rfl⟩ := ih
    exact ⟨new ++ [r], by simp [htrace], by simp [State.record]⟩
  | signalEdge _ _ ih =>
    obtain ⟨new, htrace, rfl⟩ := ih
    exact ⟨new ++ [.edge], by simp [htrace], by simp [Machine.signalEdge, State.record]⟩
  | reset _ _ c ih =>
    obtain ⟨new, htrace, rfl⟩ := ih
    exact ⟨new ++ [.reset c], by simp [htrace], by simp [applyReset, State.record]⟩
  | _ =>
    rename_i ih
    obtain ⟨new, htrace, rfl⟩ := ih
    exact ⟨new, htrace, rfl⟩

/-- An instruction leaves what was recorded. -/
theorem exec_trace_prefix {i : Instr} {s t : State} (h : exec i s = .next t) : s.trace <+: t.trace := by
  obtain ⟨u, u', hu, -, hops⟩ := exec_sameOps i s s.trace
  cases hu.symm.trans h
  obtain ⟨new, htrace, -⟩ := hops.appends
  exact ⟨new, htrace.symm⟩

/-- A turn without an instruction is the trace reader's at most. -/
theorem readUnfetched_trace (s : State) (k : Turn) : (s.readUnfetched k).trace = s.trace := by
  cases k <;> rfl

/-- Settles O35: the turn's instruction appends to TRACE, and a turn without one leaves it. -/
theorem traceIsAppendOnly : Obligations.TraceIsAppendOnly := by
  intro s t h
  obtain ⟨-, ⟨i, -, -, hexec⟩ | ⟨i, -, -, rfl⟩ | ⟨-, rfl⟩⟩ := step_cases h
  · exact exec_trace_prefix (s := s.endTurn) hexec
  · exact List.prefix_rfl
  · rw [readUnfetched_trace]
    exact List.prefix_rfl

/-- Settles O36: begun with another TRACE an instruction is built from the same operations, so it appends the same records and
differs in nothing else. -/
theorem traceIsNeverRead : Obligations.TraceIsNeverRead := by
  intro i s t tr new h hnew
  obtain ⟨u, u', hu, hu', hops⟩ := exec_sameOps i s tr
  cases hu.symm.trans h
  obtain ⟨new', htrace, rfl⟩ := hops.appends
  cases List.append_cancel_left (htrace.symm.trans hnew)
  exact hu'

/-! ### Who writes what -/

/-- Instruction `i`, begun in `s` and now in `t`, has changed no register but those the spec lets it write. -/
structure WritesOnlyItsOwn (i : Instr) (s t : State) : Prop where
  cfg : t.cfg = s.cfg
  /-- R29 -/
  seq : t.seq ≠ s.seq → i = .txComplete ∨ IsReset i
  /-- R27 -/
  hb : t.hb ≠ s.hb → i = .txComplete ∨ IsReset i
  /-- R28 -/
  fatal : t.fatal ≠ s.fatal → i = .calPollHigh ∨ i = .calPollMid ∨ IsReset i
  /-- R23, R116 -/
  evt : t.evt ≠ s.evt → i = .isr ∧ t.evt = true
    ∨ (i = .txComplete ∨ i = .rxInspect ∨ i = .rxDrain ∨ i = .rxFlush ∨ IsReset i) ∧ t.evt = false
  /-- R26 -/
  irqPend : t.irqPend ≠ s.irqPend → i = .edge ∧ t.irqPend = true ∨ (i = .isr ∨ IsReset i) ∧ t.irqPend = false
  /-- R31 -/
  calBase : t.calBase ≠ s.calBase → i = .calBeginHigh ∨ IsReset i
  /-- R31 -/
  calH : t.calH ≠ s.calH → i = .calSnapHigh ∨ IsReset i
  /-- R31 -/
  calM : t.calM ≠ s.calM → i = .calSnapMid ∨ IsReset i
  /-- R32 -/
  polls : t.polls ≠ s.polls → i = .calBeginHigh ∨ i = .calBeginMid ∨ i = .calPollHigh ∨ i = .calPollMid ∨ IsReset i
  /-- R33 -/
  rxn : t.rxn ≠ s.rxn → i = .rxInspect ∨ IsReset i
  /-- R18 -/
  ph : t.ph ≠ s.ph → (encode i).1 = .phase ∨ IsReset i
  /-- R38 -/
  mfault : s.mfault ≠ none → t.mfault ≠ none
  reader : t.reader ≠ s.reader → (encode i).1 = .port

/-- A reset may write every element but the parameters, MFAULT and the trace reader, which it leaves (R160). -/
theorem WritesOnlyItsOwn.reset {i : Instr} {s t : State} (h : WritesOnlyItsOwn i s t) (hi : IsReset i) (c : ResetCause) :
    WritesOnlyItsOwn i s (applyReset c t) where
  cfg := h.cfg
  seq _ := .inr hi
  hb _ := .inr hi
  fatal _ := .inr (.inr hi)
  evt _ := .inr ⟨.inr (.inr (.inr (.inr hi))), rfl⟩
  irqPend _ := .inr ⟨.inr hi, rfl⟩
  calBase _ := .inr hi
  calH _ := .inr hi
  calM _ := .inr hi
  polls _ := .inr (.inr (.inr (.inr hi)))
  rxn _ := .inr hi
  ph _ := .inr hi
  mfault := h.mfault
  reader := h.reader

/-- Each operation writes the registers it names, and only where it is open to the instruction. -/
theorem SameOps.writesOnlyItsOwn {i : Instr} {s t t' : State} {tr : List Record} (h : SameOps i s tr t t') :
    WritesOnlyItsOwn i s t := by
  induction h with
  | start => constructor <;> simp
  | record _ _ ih => exact { ih with }
  | consume _ _ ih => exact { ih with }
  | toPhase _ hi _ ih => exact { ih with ph := fun _ => .inl hi }
  | clearEvt _ hi ih => exact { ih with evt := fun _ => .inr ⟨hi.imp_right (·.imp_right (·.imp_right .inl)), rfl⟩ }
  | writeCounters _ hi _ _ ih => exact { ih with seq := fun _ => .inl hi, hb := fun _ => .inl hi }
  | setFatal _ hi ih => exact { ih with fatal := fun _ => hi.imp_right .inl }
  | writeCalBase _ hi _ ih => exact { ih with calBase := fun _ => .inl hi }
  | writeCalH _ hi _ ih => exact { ih with calH := fun _ => .inl hi }
  | writeCalM _ hi _ ih => exact { ih with calM := fun _ => .inl hi }
  | writePolls _ hi _ ih => exact { ih with polls := fun _ => hi.imp_right (·.imp_right (·.imp_right .inl)) }
  | writeRxn _ hi _ ih => exact { ih with rxn := fun _ => .inl hi }
  | modelFault _ _ ih => exact { ih with mfault := fun _ => by simp }
  | signalEdge _ hi ih => exact { ih with irqPend := fun _ => .inl ⟨hi, rfl⟩ }
  | takeInterrupt _ hi ih =>
    exact { ih with evt := fun _ => .inl ⟨hi, rfl⟩, irqPend := fun _ => .inr ⟨.inl hi, rfl⟩ }
  | reset _ hi c ih => exact ih.reset hi c
  | readPortWord _ hi _ ih => exact { ih with reader := fun _ => hi }

/-- Settles O37: every operation an instruction is built from writes only what the spec gives that instruction. -/
theorem registersHaveOnlyTheirWriters : Obligations.RegistersHaveOnlyTheirWriters := by
  intro i s t h
  obtain ⟨u, u', hu, -, hops⟩ := exec_sameOps i s s.trace
  cases hu.symm.trans h
  have hw := hops.writesOnlyItsOwn
  exact ⟨hw.cfg, hw.seq, hw.hb, hw.fatal, hw.evt, hw.irqPend, hw.calBase, hw.calH, hw.calM, hw.polls, hw.rxn, hw.ph,
    hw.mfault, hw.reader⟩

/-! ### ST (R21, R22) -/

/-- The two transmit states are those of the codes 0x08 to 0x0B. -/
theorem code_of_transmit : ∀ c : BitVec 5, stOfPhase c = some .transmitArmed ∨ stOfPhase c = some .transmitComplete →
    0x08 ≤ c.toNat ∧ c.toNat ≤ 0x0B := by
  decide

/-- The three receive states are those of the codes 0x0C to 0x10. -/
theorem code_of_receive : ∀ c : BitVec 5,
    stOfPhase c = some .receiveArmed ∨ stOfPhase c = some .receiveComplete ∨ stOfPhase c = some .fifoError →
    0x0C ≤ c.toNat ∧ c.toNat ≤ 0x10 := by
  decide

/-- Every code that is not reserved has a state. -/
theorem stOfPhase_ne_none : ∀ c : BitVec 5, c.toNat ≤ 0x11 → stOfPhase c ≠ none := by
  decide

/-- With the invariant, a transmit state shows MODE = TX. -/
theorem State.Inv.mode_tx_of_st {s : State} (hs : s.Inv)
    (h : s.st = some .transmitArmed ∨ s.st = some .transmitComplete) : s.par.mode = .tx :=
  hs.mode_tx (code_of_transmit s.ph h)

/-- With the invariant, a receive state shows MODE = RX. -/
theorem State.Inv.mode_rx_of_st {s : State} (hs : s.Inv)
    (h : s.st = some .receiveArmed ∨ s.st = some .receiveComplete ∨ s.st = some .fifoError) : s.par.mode = .rx :=
  hs.mode_rx (code_of_receive s.ph h)

/-- Settles O39: a state of the other mode would show that mode, and a phase of a mode is no reserved code. -/
theorem modesAreExclusive : Obligations.ModesAreExclusive := by
  intro s hs
  refine ⟨fun htx => ?_, fun hrx => ?_, stOfPhase_ne_none s.ph (legalPhase_le_halt hs.phase)⟩
  · have hno : s.par.mode ≠ .rx := by simp [htx]
    exact ⟨fun h => hno (hs.mode_rx_of_st (.inl h)), fun h => hno (hs.mode_rx_of_st (.inr (.inl h))),
      fun h => hno (hs.mode_rx_of_st (.inr (.inr h)))⟩
  · have hno : s.par.mode ≠ .tx := by simp [hrx]
    exact ⟨fun h => hno (hs.mode_tx_of_st (.inl h)), fun h => hno (hs.mode_tx_of_st (.inr h))⟩

/-! ### Model faults (R35, R38) -/

/-- The read of an unwritten register records the fault, and the rest of the phase does not happen. -/
theorem readWorking_of_none {α : Type} {name : WorkingReg} {v : Option α} (hv : v = none) (s : State) (go : α → State) :
    readWorking name v s go = raiseModelFault (.unwritten name) s := by
  rw [hv, readWorking_none]

/-- Settles O7: each of the phases reads its register through `readWorking`, at the point the statement names. -/
theorem unwrittenReadFaults : Obligations.UnwrittenReadFaults := by
  intro s
  refine ⟨fun hpolls i hi => ?_, fun hbase => ?_, fun hhigh => ?_, fun hhigh hmid => ?_, fun hrxn => ?_⟩
  · rcases hi with rfl | rfl <;> exact congrArg Host.Outcome.next (readWorking_of_none hpolls _ _)
  · exact congrArg Host.Outcome.next (readWorking_of_none hbase _ _)
  · exact congrArg Host.Outcome.next (readWorking_of_none hhigh _ _)
  · obtain ⟨w, hw⟩ := Option.ne_none_iff_exists'.1 hhigh
    have hfirst : exec .calApply s = .next (readWorking .calM s.calM s fun m =>
        (kick (writeTriple (calSelect w m) s)).toPhase (armPhase s.par.mode)) := by
      simp only [exec, execCalApply, hw, readWorking_some]
    exact hfirst.trans (congrArg Host.Outcome.next (readWorking_of_none hmid _ _))
  · exact congrArg Host.Outcome.next (readWorking_of_none hrxn _ _)

/-- Settles O27: a step asks for MFAULT before it asks whose turn it is. -/
theorem noStepAfterModelFault : Obligations.NoStepAfterModelFault :=
  fun _ _ hm _ => ⟨step_of_mfault hm, step_of_mfault hm⟩

/-! ### STATUS (R37) -/

theorem modeBit_eq (m : Mode) : modeBit m = BitVec.ofBool (m == .rx) := by
  cases m <;> rfl

/-- Where ST has a value, STATUS is R37's fields side by side. -/
theorem status_eq {s : State} {st : TransceiverState} (h : s.st = some st) :
    s.status = some (0#3 ++ BitVec.ofBool (s.par.mode == .rx) ++ BitVec.ofBool s.fatal ++ BitVec.ofBool s.hb
      ++ BitVec.ofBool s.irqPend ++ BitVec.ofBool s.evt ++ st.code ++ s.ph) := by
  rw [State.status, h, modeBit_eq]
  rfl

/-- Settles O40: STATUS is its fields side by side, so a field is read past those to its right. -/
theorem statusLayout : Obligations.StatusLayout := by
  intro s st h
  refine ⟨_, status_eq h, BitVec.extractLsb'_append_eq_right, ?code, ?bits⟩
  case code =>
    rw [BitVec.extractLsb'_append_eq_of_le (by decide)]
    exact BitVec.extractLsb'_append_eq_right
  case bits =>
    simp only [BitVec.getLsbD_append, BitVec.extractLsb'_append_eq_of_le, Nat.reduceLeDiff, Nat.reduceSub, Nat.le_refl]
    simp

end Sys2Proof.Machine
end

section
/-!
PROOFS, family 20_memory: the Register Access Port is the sequencer's alone (20_memory.md R43, 70_reset_and_hazards.md R170). An
event is one of four instructions, none of which draws or makes a port record; a port word is the trace reader's.
-/

namespace Sys2Proof.Machine

/-! ### The instructions of a format (R68, R69) -/

/-- An instruction of format EVENT has one of the four event codes. -/
theorem eq_decodeEvent_of_format {i : Instr} (h : (encode i).1 = .event) : ∃ e : BitVec 2, i = decodeEvent e := by
  cases i with
  | resetPor => exact ⟨0#2, rfl⟩
  | resetWdt => exact ⟨1#2, rfl⟩
  | edge => exact ⟨2#2, rfl⟩
  | isr => exact ⟨3#2, rfl⟩
  | _ => cases h

/-- An instruction of format PORT is the row of a port word. -/
theorem eq_toInstr_of_format {i : Instr} (h : (encode i).1 = .port) : ∃ p : PortWord, i = p.toInstr := by
  cases i with
  | portRead a d => exact ⟨.read a d, rfl⟩
  | portWrite a d => exact ⟨.write a d, rfl⟩
  | portStrobe c => exact ⟨.strobe c, rfl⟩
  | portRfifo n => exact ⟨.rfifo n, rfl⟩
  | portWfifo n => exact ⟨.wfifo n, rfl⟩
  | portFdata b => exact ⟨.fdata b, rfl⟩
  | portReserved w => exact ⟨.reserved w, rfl⟩
  | _ => cases h

/-! ### Operations that leave the port alone (R43) -/

/-- From `s` to `t` no answer is drawn, and no record appended to TRACE is a port record. -/
def UsesNoPort (s t : State) : Prop :=
  t.answers = s.answers ∧ t.draws = s.draws
    ∧ ∃ new, t.trace = s.trace ++ new ∧ ∀ r ∈ new, ∀ p : PortRecord, r ≠ .port p

/-- An edge records itself (R112). -/
theorem usesNoPort_signalEdge (s : State) : UsesNoPort s (signalEdge s) :=
  ⟨rfl, rfl, [.edge], rfl, by simp⟩

/-- Taking the interrupt records nothing (R114). -/
theorem usesNoPort_takeInterrupt (s : State) : UsesNoPort s (takeInterrupt s) :=
  ⟨rfl, rfl, [], (List.append_nil s.trace).symm, by simp⟩

/-- A reset records its cause (R160). -/
theorem usesNoPort_applyReset (c : ResetCause) (s : State) : UsesNoPort s (applyReset c s) :=
  ⟨rfl, rfl, [.reset c], rfl, by simp⟩

/-- No event uses the port. -/
theorem exec_decodeEvent_usesNoPort {e : BitVec 2} {s t : State} (h : exec (decodeEvent e) s = .next t) :
    UsesNoPort s t := by
  rcases event_cases e with rfl | rfl | rfl | rfl <;> cases h
  · exact usesNoPort_applyReset .powerOn s
  · exact usesNoPort_applyReset .watchdog s
  · exact usesNoPort_signalEdge s
  · exact usesNoPort_takeInterrupt s

/-- Settles O38: an event is one of four instructions that leave the port alone, and a port word's meaning is the trace reader's
taking it. -/
theorem onlySequencerUsesPort : Obligations.OnlySequencerUsesPort := by
  intro i s t h
  refine ⟨fun hevent => ?_, fun hport => ?_⟩
  · obtain ⟨e, rfl⟩ := eq_decodeEvent_of_format hevent
    exact exec_decodeEvent_usesNoPort h
  · obtain ⟨p, rfl⟩ := eq_toInstr_of_format hport
    rw [exec_toInstr] at h
    cases h
    rfl

end Sys2Proof.Machine
end

section
/-!
PROOFS, family 30_encoding: the fields of a packed port word (30_encoding.md R69) and the words with a forbidden bit (R70); the
round trips of an instruction's code (R62, R63, R68); the reader that rebuilds the port's records from their words (R69, R70); the
instruction a placed word makes the next step run (R62); the packet TX_ARM writes (R71, R72).
-/

namespace Sys2Proof

/-! ### The fields of a packed port word (R69) -/

/-- A word is its four fields side by side. -/
theorem portWord_eq_fields (w : BitVec 32) :
    w = w.extractLsb' 28 4 ++ w.extractLsb' 24 4 ++ w.extractLsb' 8 16 ++ w.extractLsb' 0 8 := by
  rw [BitVec.extractLsb'_append_extractLsb'_eq_extractLsb' (by decide),
    BitVec.extractLsb'_append_extractLsb'_eq_extractLsb' (by decide),
    BitVec.extractLsb'_append_extractLsb'_eq_extractLsb' (by decide)]
  exact BitVec.extractLsb'_eq_self.symm

section
variable (kind zero : BitVec 4) (a : Addr) (d : Byte)

@[simp] theorem kind_of_fields : (kind ++ zero ++ a ++ d : BitVec 32).extractLsb' 28 4 = kind := by
  rw [BitVec.extractLsb'_append_eq_of_le (by decide), BitVec.extractLsb'_append_eq_of_le (by decide)]
  exact BitVec.extractLsb'_append_eq_left

@[simp] theorem zero_of_fields : (kind ++ zero ++ a ++ d : BitVec 32).extractLsb' 24 4 = zero := by
  rw [BitVec.extractLsb'_append_eq_of_le (by decide), BitVec.extractLsb'_append_eq_of_le (by decide)]
  exact BitVec.extractLsb'_append_eq_right

@[simp] theorem address_of_fields : (kind ++ zero ++ a ++ d : BitVec 32).extractLsb' 8 16 = a := by
  rw [BitVec.extractLsb'_append_eq_of_le (by decide)]
  exact BitVec.extractLsb'_append_eq_right

@[simp] theorem data_of_fields : (kind ++ zero ++ a ++ d : BitVec 32).extractLsb' 0 8 = d :=
  BitVec.extractLsb'_append_eq_right

end

/-- The kinds R69 does not reserve are 1 to 6. -/
theorem reservedKind_eq_false_iff (w : BitVec 32) :
    reservedKind w = false ↔ 1 ≤ (w.extractLsb' 28 4).toNat ∧ (w.extractLsb' 28 4).toNat ≤ 6 := by
  have hkinds : ∀ kind : BitVec 4,
      (kind == 0x0#4 || (0x7#4).ule kind) = false ↔ 1 ≤ kind.toNat ∧ kind.toNat ≤ 6 := by decide
  exact hkinds _

/-- A kind that is not reserved is one of R69's table. -/
theorem known_kind_cases {w : BitVec 32} (h : reservedKind w = false) :
    w.extractLsb' 28 4 = 1#4 ∨ w.extractLsb' 28 4 = 2#4 ∨ w.extractLsb' 28 4 = 3#4 ∨ w.extractLsb' 28 4 = 4#4
      ∨ w.extractLsb' 28 4 = 5#4 ∨ w.extractLsb' 28 4 = 6#4 := by
  have hknown := (reservedKind_eq_false_iff w).mp h
  bv_omega

/-! ### Packing and decoding a port word (R69, R70) -/

/-- Some word decodes to `p`: only a word of a reserved kind is called reserved. -/
def PortWord.Decodable (p : PortWord) : Prop :=
  ∀ w, p = .reserved w → reservedKind w = true

/-- Decoding inverts packing, whatever the fields hold. -/
theorem decodePortWord_encodePortWord {p : PortWord} (hp : p.Decodable) :
    decodePortWord (encodePortWord p) = .ok p := by
  cases p with
  | reserved w => simp [decodePortWord, encodePortWord, hp w rfl]
  | _ =>
    simp only [decodePortWord, encodePortWord, reservedKind, kind_of_fields, zero_of_fields, address_of_fields,
      data_of_fields, -BitVec.reduceAppend]
    rfl

/-- A bit is set where R70 wants 0: in 27:24, or in 23:8 of a kind that has no address. -/
def HasForbiddenBit (w : BitVec 32) : Prop :=
  reservedKind w = false ∧ (w.extractLsb' 24 4 ≠ 0#4 ∨ 3 ≤ (w.extractLsb' 28 4).toNat ∧ w.extractLsb' 8 16 ≠ 0#16)

/-- Such a word is rejected, for the first forbidden bit the decoder looks at. -/
theorem decodePortWord_of_hasForbiddenBit {w : BitVec 32} (h : HasForbiddenBit w) : ∃ e, decodePortWord w = .error e := by
  obtain ⟨hres, hbits⟩ := h
  rw [decodePortWord, if_neg (Bool.eq_false_iff.mp hres)]
  by_cases hz : w.extractLsb' 24 4 = 0#4
  · obtain ⟨hk, ha⟩ := hbits.resolve_left (not_not.mpr hz)
    have h1 : w.extractLsb' 28 4 ≠ 0x1#4 := by bv_omega
    have h2 : w.extractLsb' 28 4 ≠ 0x2#4 := by bv_omega
    exact ⟨.addressBits, by rw [if_neg (not_not.mpr hz), if_neg h1, if_neg h2, if_pos ha]⟩
  · exact ⟨.reservedBits, if_pos hz⟩

/-- Any other word packs some port word. -/
theorem exists_encodePortWord {w : BitVec 32} (h : ¬ HasForbiddenBit w) :
    ∃ p : PortWord, p.Decodable ∧ encodePortWord p = w := by
  cases hres : reservedKind w with
  | true => exact ⟨.reserved w, by rintro _ ⟨⟩; exact hres, rfl⟩
  | false =>
    obtain ⟨hz, ha⟩ := not_or.mp fun hbits => h ⟨hres, hbits⟩
    have hw := (portWord_eq_fields w).symm
    rw [of_not_not hz] at hw
    rcases known_kind_cases hres with hk | hk | hk | hk | hk | hk
    · rw [hk] at hw; exact ⟨.read _ _, nofun, hw⟩
    · rw [hk] at hw; exact ⟨.write _ _, nofun, hw⟩
    all_goals rw [hk, of_not_not fun hne => ha ⟨by rw [hk]; decide, hne⟩] at hw
    · exact ⟨.strobe _, nofun, hw⟩
    · exact ⟨.rfifo _, nofun, hw⟩
    · exact ⟨.wfifo _, nofun, hw⟩
    · exact ⟨.fdata _, nofun, hw⟩

/-- The words that decode to nothing are those with a forbidden bit. -/
theorem decodePortWord_error_iff (w : BitVec 32) : (∃ e, decodePortWord w = .error e) ↔ HasForbiddenBit w := by
  refine ⟨fun ⟨e, he⟩ => ?_, decodePortWord_of_hasForbiddenBit⟩
  by_contra hbits
  obtain ⟨p, hp, rfl⟩ := exists_encodePortWord hbits
  cases he.symm.trans (decodePortWord_encodePortWord hp)

/-- Packing inverts decoding: no bit of a word is dropped. -/
theorem encodePortWord_of_decodePortWord {w : BitVec 32} {p : PortWord} (h : decodePortWord w = .ok p) :
    encodePortWord p = w := by
  have hbits : ¬ HasForbiddenBit w := by
    intro hbits
    obtain ⟨e, he⟩ := decodePortWord_of_hasForbiddenBit hbits
    cases he.symm.trans h
  obtain ⟨q, hq, rfl⟩ := exists_encodePortWord hbits
  cases (decodePortWord_encodePortWord hq).symm.trans h
  rfl

theorem decodePort_error_iff (w : BitVec 32) (e : DecodeError) : decodePort w = .error e ↔ decodePortWord w = .error e := by
  unfold decodePort
  cases decodePortWord w <;> simp

theorem decodePort_ok {w : BitVec 32} {i : Instr} (h : decodePort w = .ok i) :
    ∃ p : PortWord, decodePortWord w = .ok p ∧ i = p.toInstr := by
  unfold decodePort at h
  cases hp : decodePortWord w with
  | ok p => rw [hp] at h; cases h; exact ⟨p, rfl, rfl⟩
  | error e => rw [hp] at h; cases h

/-- A port instruction's code is its packed word. -/
theorem encode_toInstr (p : PortWord) : encode p.toInstr = (.port, (encodePortWord p).toNat) := by
  cases p <;> rfl

/-- A well-formed port instruction's word decodes to it. -/
theorem decodePort_encodePortWord {p : PortWord} (hp : p.toInstr.wf = true) :
    decodePort (encodePortWord p) = .ok p.toInstr := by
  have hdec : p.Decodable := by rintro w rfl; exact hp
  simp [decodePort, decodePortWord_encodePortWord hdec]

/-- An instruction of format PHASE is what its code decodes to. -/
theorem decodePhase_encode {i : Instr} (h : (encode i).1 = .phase) : decodePhase (BitVec.ofNat 5 (encode i).2) = i := by
  cases i with
  | reserved12 low => revert low; decide
  | reserved14 low => revert low; decide
  | reserved18 low => revert low; decide
  | resetPor | resetWdt | edge | isr => cases h
  | portRead | portWrite | portStrobe | portRfifo | portWfifo | portFdata | portReserved => cases h
  | _ => rfl

end Sys2Proof

namespace Sys2Proof.Machine

/-! ### Round trips of an instruction's code (R62, R63, R68, R69) -/

/-- Settles O41: an instruction is read off its format's code map, which its code goes through again. -/
theorem decodeEncodeRoundTrip : Obligations.DecodeEncodeRoundTrip := by
  intro i hi
  cases hf : (encode i).1 with
  | phase =>
    rw [← decodePhase_encode hf, encode_decodePhase]
    exact decode_phase _
  | event =>
    obtain ⟨e, rfl⟩ := eq_decodeEvent_of_format hf
    rw [encode_decodeEvent]
    exact decode_event e
  | port =>
    obtain ⟨p, rfl⟩ := eq_toInstr_of_format hf
    rw [encode_toInstr]
    exact (decode_port _).trans (decodePort_encodePortWord hi)

/-- Settles O42: a number that decodes is the value of a bit vector of the format's width, and each code map is inverted there. -/
theorem encodeDecodeRoundTrip : Obligations.EncodeDecodeRoundTrip := by
  intro f w i h
  obtain ⟨c, rfl⟩ : ∃ c : BitVec f.width, w = c.toNat :=
    ⟨BitVec.ofNat f.width w, (Nat.mod_eq_of_lt (decode_ok_lt h)).symm⟩
  cases f with
  | phase =>
    cases (decode_phase c).symm.trans h
    exact encode_decodePhase c
  | event =>
    cases (decode_event c).symm.trans h
    exact encode_decodeEvent c
  | port =>
    obtain ⟨p, hp, rfl⟩ := decodePort_ok ((decode_port c).symm.trans h)
    rw [encode_toInstr, encodePortWord_of_decodePortWord hp]
    rfl

/-! ### What the reader does with one word (R69, R70) -/

/-- The record a word holds alone: R69's kinds READ, WRITE and STROBE. -/
def wholeRecord : PortWord → Option PortRecord
  | .read a d => some (.read a d)
  | .write a d => some (.write a d)
  | .strobe c => some (.strobe c)
  | _ => none

/-- The header of a burst of `n` bytes, WFIFO where `isWrite`, else RFIFO. -/
def burstHeader (isWrite : Bool) (n : Byte) : PortWord :=
  if isWrite then .wfifo n else .rfifo n

section
variable {r : PortReader} {b : Burst}

/-- Outside a burst a whole record is taken. -/
theorem feed_wholeRecord (hi : r.invalid = none) (hb : r.burst = none) {p : PortWord} {q : PortRecord}
    (hp : wholeRecord p = some q) : r.feed p = { r with index := r.index + 1, records := r.records ++ [q] } := by
  cases p with
  | read a d | write a d | strobe c =>
    cases hp
    simp [PortReader.feed, hi, PortReader.single, outsideBurst_none hb]
  | _ => cases hp

/-- Outside a burst a header opens one of its count, or reports an empty one (R70). -/
theorem feed_burstHeader (hi : r.invalid = none) (hb : r.burst = none) (isWrite : Bool) (n : Byte) :
    r.feed (burstHeader isWrite n) =
      if n = 0 then r.reject r.index
      else { r with index := r.index + 1, burst := some ⟨r.index, isWrite, n, []⟩ } := by
  cases isWrite <;> simp [PortReader.feed, hi, burstHeader, PortReader.header, outsideBurst_none hb]

/-- Outside a burst a word of a reserved kind reports its index. -/
theorem feed_reserved (hi : r.invalid = none) (hb : r.burst = none) (w : BitVec 32) :
    r.feed (.reserved w) = r.reject r.index := by
  simp [PortReader.feed, hi, outsideBurst_none hb]

/-- Outside a burst an FDATA word reports its index. -/
theorem feed_fdata_outside (hi : r.invalid = none) (hb : r.burst = none) (x : Byte) :
    r.feed (.fdata x) = r.reject r.index := by
  simp [PortReader.feed, hi, PortReader.data, hb]

/-- Inside a burst an FDATA word before the last adds its byte. -/
theorem feed_fdata_more (hi : r.invalid = none) (hb : r.burst = some b) {x : Byte}
    (hx : b.bytes.length + 1 ≠ b.count.toNat) :
    r.feed (.fdata x) = { r with index := r.index + 1, burst := some { b with bytes := b.bytes ++ [x] } } := by
  simp [PortReader.feed, hi, PortReader.data, hb, hx]

/-- The last FDATA word of a burst completes its record. -/
theorem feed_fdata_last (hi : r.invalid = none) (hb : r.burst = some b) {x : Byte}
    (hx : b.bytes.length + 1 = b.count.toNat) :
    r.feed (.fdata x) =
      { r with
        index := r.index + 1
        burst := none
        records := r.records ++ [{ b with bytes := b.bytes ++ [x] }.record] } := by
  simp [PortReader.feed, hi, PortReader.data, hb, hx]

/-- Inside a burst any word but an FDATA word leaves the header short, and the header is reported (log entry 11). -/
theorem feed_cutsBurst (hi : r.invalid = none) (hb : r.burst = some b) {p : PortWord} (hp : ∀ x, p ≠ .fdata x) :
    r.feed p = r.reject b.header := by
  cases p with
  | fdata x => exact absurd rfl (hp x)
  | _ => simp [PortReader.feed, hi, PortReader.single, PortReader.header, outsideBurst_some hb]

end

/-! ### What the reader does with a record's words -/

/-- Fewer FDATA words than are missing leave the burst open. -/
theorem feed_bytes_short (k : Nat) (qs : List PortRecord) {b : Burst} {bs : List Byte}
    (hlen : b.bytes.length + bs.length < b.count.toNat) :
    (bs.map PortWord.fdata).foldl PortReader.feed ⟨k, some b, qs, none⟩ =
      ⟨k + bs.length, some { b with bytes := b.bytes ++ bs }, qs, none⟩ := by
  induction bs generalizing k b with
  | nil => simp
  | cons x bs ih =>
    rw [List.length_cons] at hlen
    rw [List.map_cons, List.foldl_cons, feed_fdata_more (b := b) rfl rfl (by omega), ih _ (by simp; omega)]
    simp [Nat.add_assoc, Nat.add_comm 1]

/-- As many FDATA words as are missing complete the record. -/
theorem feed_bytes_complete (k : Nat) (qs : List PortRecord) {b : Burst} {bs : List Byte} (hne : bs ≠ [])
    (hlen : b.bytes.length + bs.length = b.count.toNat) :
    (bs.map PortWord.fdata).foldl PortReader.feed ⟨k, some b, qs, none⟩ =
      ⟨k + bs.length, none, qs ++ [{ b with bytes := b.bytes ++ bs }.record], none⟩ := by
  obtain ⟨front, x, rfl⟩ := (List.eq_nil_or_concat' bs).resolve_left hne
  rw [List.length_append, List.length_singleton] at hlen
  rw [List.map_append, List.foldl_append, feed_bytes_short k qs (by omega)]
  have hlast : (b.bytes ++ front).length + 1 = b.count.toNat := by simp; omega
  refine (feed_fdata_last (r := ⟨k + front.length, some _, qs, none⟩) rfl rfl hlast).trans ?_
  simp [Nat.add_assoc]

/-- A header and fewer FDATA words than it counts: the burst stays open. -/
theorem feed_burst_short (k : Nat) (qs : List PortRecord) (isWrite : Bool) {n : Byte} {bs : List Byte}
    (hlen : bs.length < n.toNat) :
    (burstHeader isWrite n :: bs.map .fdata).foldl PortReader.feed ⟨k, none, qs, none⟩ =
      ⟨k + 1 + bs.length, some ⟨k, isWrite, n, bs⟩, qs, none⟩ := by
  have hn : n ≠ 0 := by rintro rfl; simp at hlen
  rw [List.foldl_cons, feed_burstHeader rfl rfl, if_neg hn, feed_bytes_short _ _ (by simpa using hlen)]
  rfl

/-- A header and as many FDATA words as it counts: the record of the burst. -/
theorem feed_burst_complete (k : Nat) (qs : List PortRecord) (isWrite : Bool) {n : Byte} {bs : List Byte}
    (hn : n ≠ 0) (hlen : bs.length = n.toNat) :
    (burstHeader isWrite n :: bs.map .fdata).foldl PortReader.feed ⟨k, none, qs, none⟩ =
      ⟨k + 1 + bs.length, none, qs ++ [if isWrite then .writeFifo bs else .readFifo n bs], none⟩ := by
  have hne : bs ≠ [] := by
    rintro rfl
    exact hn (BitVec.eq_of_toNat_eq hlen.symm)
  rw [List.foldl_cons, feed_burstHeader rfl rfl, if_neg hn, feed_bytes_complete _ _ hne (by simpa using hlen)]
  rfl

/-- The words of a record the port can produce give the record. -/
theorem feed_packRecord (k : Nat) (qs : List PortRecord) {q : PortRecord} (hq : q.wf = true) :
    (packRecord q).foldl PortReader.feed ⟨k, none, qs, none⟩ =
      ⟨k + (packRecord q).length, none, qs ++ [q], none⟩ := by
  cases q with
  | read a d => exact feed_wholeRecord (r := ⟨k, none, qs, none⟩) rfl rfl (p := .read a d) rfl
  | write a d => exact feed_wholeRecord (r := ⟨k, none, qs, none⟩) rfl rfl (p := .write a d) rfl
  | strobe c => exact feed_wholeRecord (r := ⟨k, none, qs, none⟩) rfl rfl (p := .strobe c) rfl
  | readFifo n bs =>
    simp only [PortRecord.wf, Bool.and_eq_true, bne_iff_ne, beq_iff_eq] at hq
    obtain ⟨hn, hcount⟩ := hq
    refine (feed_burst_complete k qs false hn hcount.symm).trans ?_
    simp [packRecord, Nat.add_assoc, Nat.add_comm 1]
  | writeFifo bs =>
    simp only [PortRecord.wf, Bool.and_eq_true, decide_eq_true_eq] at hq
    obtain ⟨hpos, hmax⟩ := hq
    have hcount : (BitVec.ofNat 8 bs.length).toNat = bs.length := Nat.mod_eq_of_lt (by omega)
    have hn : BitVec.ofNat 8 bs.length ≠ 0 := fun h => Nat.ne_of_gt hpos (hcount.symm.trans (congrArg BitVec.toNat h))
    refine (feed_burst_complete k qs true hn hcount.symm).trans ?_
    simp [packRecord, Nat.add_assoc, Nat.add_comm 1]

/-! ### A whole trace file (R69, R70) -/

/-- The reader takes packed words as the words they pack. -/
theorem feedWord_encodePortWord {ps : List PortWord} (hps : ∀ p ∈ ps, p.Decodable) (r : PortReader) :
    (ps.map encodePortWord).foldl PortReader.feedWord r = ps.foldl PortReader.feed r := by
  rw [List.foldl_map]
  refine List.foldl_ext _ _ _ fun r p hp => ?_
  simp [PortReader.feedWord, decodePortWord_encodePortWord (hps p hp)]

/-- No word of a burst is reserved. -/
theorem burst_decodable (isWrite : Bool) (n : Byte) (bs : List Byte) :
    ∀ p ∈ burstHeader isWrite n :: bs.map .fdata, p.Decodable := by
  rintro p hp w rfl
  cases isWrite <;> simp [burstHeader] at hp

/-- No word of a record is reserved. -/
theorem packRecord_decodable (q : PortRecord) : ∀ p ∈ packRecord q, p.Decodable := by
  rintro p hp w rfl
  cases q <;> simp [packRecord] at hp

/-- A packed list of records adds its records to what was read. -/
theorem feed_packTrace (k : Nat) (qs : List PortRecord) {rs : List PortRecord} (hrs : ∀ q ∈ rs, q.wf = true) :
    (packTrace rs).foldl PortReader.feedWord ⟨k, none, qs, none⟩ =
      ⟨k + (packTrace rs).length, none, qs ++ rs, none⟩ := by
  induction rs generalizing k qs with
  | nil => simp [packTrace]
  | cons q rs ih =>
    obtain ⟨hq, hrest⟩ := List.forall_mem_cons.mp hrs
    have hpack : packTrace (q :: rs) = (packRecord q).map encodePortWord ++ packTrace rs := rfl
    rw [hpack, List.foldl_append, feedWord_encodePortWord (packRecord_decodable q), feed_packRecord k qs hq, ih _ _ hrest]
    simp [Nat.add_assoc]

/-- The records of a trace's first words are read before the rest. -/
theorem decodePortTrace_append {rs : List PortRecord} (hrs : ∀ q ∈ rs, q.wf = true) (ws : List (BitVec 32)) :
    decodePortTrace (packTrace rs ++ ws) =
      (ws.foldl PortReader.feedWord ⟨(packTrace rs).length, none, rs, none⟩).finish := by
  rw [decodePortTrace, PortReader.start, List.foldl_append, feed_packTrace 0 [] hrs, Nat.zero_add, List.nil_append]

/-- Settles O43: the records of a packed list are added one by one, and nothing is left open at its end. -/
theorem portTraceRoundTrip : Obligations.PortTraceRoundTrip := by
  intro rs hrs
  rw [← List.append_nil (packTrace rs), decodePortTrace_append hrs]
  rfl

/-- At the end of a trace an open burst reports its header's index (log entry 11). -/
theorem decodePortTrace_short (isWrite : Bool) {rs : List PortRecord} {n : Byte} {bs : List Byte}
    (hrs : ∀ q ∈ rs, q.wf = true) (hlen : bs.length < n.toNat) :
    decodePortTrace (packTrace rs ++ (burstHeader isWrite n :: bs.map .fdata).map encodePortWord) =
      .error (packTrace rs).length := by
  rw [decodePortTrace_append hrs, feedWord_encodePortWord (burst_decodable isWrite n bs), feed_burst_short _ _ isWrite hlen]
  rfl

/-- Settles O58: one argument for both headers. -/
theorem shortBurstAtEndIsReported : Obligations.ShortBurstAtEndIsReported := fun _ _ _ hrs hlen =>
  ⟨decodePortTrace_short false hrs hlen, decodePortTrace_short true hrs hlen⟩

/-! ### The rows of port words (R69, R70) -/

/-- A port instruction's result is what the reader makes of the word. -/
theorem exec_of_feed {s : State} {p : PortWord} {r : PortReader} (h : s.reader.feed p = r) :
    exec p.toInstr s = .next { s with reader := r } := by
  rw [exec_toInstr, State.readPortWord, h]

/-- Settles O22: each of the three words is a whole record. -/
theorem portSingleWordResult : Obligations.PortSingleWordResult := fun _ hi hb =>
  ⟨fun a d => exec_of_feed (p := .read a d) (feed_wholeRecord hi hb rfl),
    fun a d => exec_of_feed (p := .write a d) (feed_wholeRecord hi hb rfl),
    fun c => exec_of_feed (p := .strobe c) (feed_wholeRecord hi hb rfl)⟩

/-- Settles O23: a header opens, an FDATA word continues or completes. -/
theorem portBurstResult : Obligations.PortBurstResult := by
  intro s hi
  refine ⟨fun hb n hn => ?header, fun b x hb => ⟨fun hx => ?more, fun hx => ?last⟩⟩
  case header =>
    have hopen (isWrite : Bool) := (feed_burstHeader hi hb isWrite n).trans (if_neg hn)
    exact ⟨exec_of_feed (hopen false), exec_of_feed (hopen true)⟩
  case more => exact exec_of_feed (feed_fdata_more hi hb hx)
  case last => exact exec_of_feed (feed_fdata_last hi hb hx)

/-- Settles O24: outside a burst, inside one, and after an invalid word. -/
theorem portInvalidWordResult : Obligations.PortInvalidWordResult := by
  intro s
  refine ⟨fun hi hb => ?outside, fun b hi hb => ?inside, fun k hk p => exec_of_feed (feed_invalid hk p)⟩
  case outside =>
    have hempty (isWrite : Bool) := feed_burstHeader hi hb isWrite 0
    exact ⟨fun w => exec_of_feed (feed_reserved hi hb w), exec_of_feed (hempty false), exec_of_feed (hempty true),
      fun x => exec_of_feed (feed_fdata_outside hi hb x)⟩
  case inside =>
    have hcut {p : PortWord} (hp : ∀ x, p ≠ .fdata x) := exec_of_feed (feed_cutsBurst hi hb hp)
    exact ⟨fun a d => hcut (p := .read a d) nofun, fun a d => hcut (p := .write a d) nofun,
      fun c => hcut (p := .strobe c) nofun, fun n => hcut (p := .rfifo n) nofun, fun n => hcut (p := .wfifo n) nofun,
      fun w => hcut (p := .reserved w) nofun⟩

/-- Settles O57: which words are malformed is the decoder's to say, what one reports the reader's. -/
theorem malformedPortWordIsReported : Obligations.MalformedPortWordIsReported := by
  refine ⟨fun w => ?words, fun s w e hm hp he => ?report⟩
  case words =>
    simp only [decodePort_error_iff, decodePortWord_error_iff, HasForbiddenBit, reservedKind_eq_false_iff, and_assoc]
  case report =>
    have hkind : w.extractLsb' 28 4 = 0x6#4 ↔ (w.extractLsb' 28 4).toNat = 6 := by bv_omega
    have hreads {r : PortReader} (hr : s.reader.malformed w = r) : step s = .next { s.endTurn with reader := r } := by
      rw [step_malformed hm hp he, ← hr]
      rfl
    refine ⟨fun hi hb => hreads ?_, fun b hi hb => hreads ?_, fun k hk => hreads (malformed_invalid hk w)⟩
    · simp [malformed_eq hi, hb, PortReader.reject]
    · simp [malformed_eq hi, hb, hkind, PortReader.reject]

/-! ### A placed word (R62, R82) -/

/-- Settles O28: the placed word is the next turn, its agent may step, and taking the turn leaves the script as it was. -/
theorem placedWordRunsNext : Obligations.PlacedWordRunsNext := by
  intro s hm
  refine ⟨fun c => ?phase, fun e => ?event, fun w i hw => ?port⟩
  case phase =>
    have hplaced : s.withFetchWord 8 c.toNat =
        { s with ph := c, irqPend := false, script := .sequencer :: s.script } := by
      simp [State.withFetchWord, State.placeWord, formatOfBits]
    rw [hplaced]
    exact step_runs hm rfl rfl
  case event =>
    have hplaced : s.withFetchWord 2 e.toNat =
        { s with irqPend := s.irqPend || e == 3#2, script := .event e :: s.script } := by
      simp [State.withFetchWord, State.placeWord, formatOfBits]
    rw [hplaced]
    refine step_runs hm rfl ?_
    by_cases he : e = 3#2 <;> simp [State.pick, State.mayStep, he]
  case port =>
    have hplaced : s.withFetchWord 32 w.toNat = { s with script := .word w :: s.script } := by
      simp [State.withFetchWord, State.placeWord, formatOfBits]
    rw [hplaced]
    refine step_runs hm ?_ rfl
    simp [State.pick, State.fetch, hw, Except.toOption]

/-! ### The packet TX_ARM writes (R71, R72) -/

theorem buildTxPacket_length (q : SeqNum) (pl : List Byte) : (buildTxPacket q pl).length = 3 + pl.length := by
  simp [buildTxPacket]
  omega

/-- Settles O9: the payload leaves room for three bytes below PKT_LEN_MAX, and PKT_LEN_MAX is below 256. -/
theorem transmittedPacketIsLegal : Obligations.TransmittedPacketIsLegal := by
  rintro s t bs h htrace
  cases h
  obtain rfl : buildTxPacket s.seq (payloadOf s.par s.seq) = bs := by
    simpa [State.record] using htrace
  have hpayload : (payloadOf s.par s.seq).length ≤ s.par.pktLenMax - 3 := payloadOf_length s.cfg s.seq
  obtain ⟨hmin, hmax, hfifo, hbuf⟩ : 3 ≤ s.par.pktLenMax ∧ s.par.pktLenMax < s.par.fifoCapacity
      ∧ s.par.fifoCapacity ≤ s.par.rxBufCap ∧ s.par.rxBufCap ≤ 255 := config_capacities s.cfg
  rw [buildTxPacket_length]
  refine ⟨by omega, by omega, hmax, _, _, rfl, ?_⟩
  exact Nat.mod_eq_of_lt (by omega)

/-! ### Words of the code tables -/

/-- Settles O44: the decoder evaluated on the six words. -/
theorem decodedWords : Obligations.DecodedWords := by
  unfold Obligations.DecodedWords
  decide

end Sys2Proof.Machine
end

section
/-!
PROOFS, family 40_sequencer: the phases CONFIG (40_sequencer.md R87), HALT (R89) and the reserved codes (R90); what a turn runs, and
which turns only hold (R79, R81, R82, 43_handoff.md R113); and that no write changes an answer to come (R83).
-/

namespace Sys2Proof.Machine

/-! ### HALT and the waits (R81, R89) -/

/-- HALT's meaning is a hold (R89). -/
theorem exec_halt (s : State) : exec .halt s = .next s := rfl

/-- A wait whose event has not come holds (R81). -/
theorem awaitEvent_of_not_evt {s : State} (he : s.evt = false) (c : BitVec 5) : awaitEvent c s = s := by
  simp [awaitEvent, he]

/-- PH holds a phase with no step to take: HALT, or a wait with EVT = 0 (R81). -/
def State.PhaseHolds (s : State) : Prop :=
  s.ph = Phase.halt ∨ ((s.ph = Phase.txWait ∨ s.ph = Phase.rxWait) ∧ s.evt = false)

/-- Running such a phase changes nothing. -/
theorem exec_of_phaseHolds {s : State} (h : s.PhaseHolds) : exec (decodePhase s.ph) s = .next s := by
  obtain hhalt | ⟨hwait | hwait, he⟩ := h
  · rw [hhalt]
    exact exec_halt s
  · rw [hwait]
    exact congrArg Host.Outcome.next (awaitEvent_of_not_evt he Phase.txComplete)
  · rw [hwait]
    exact congrArg Host.Outcome.next (awaitEvent_of_not_evt he Phase.rxInspect)

/-- Settles O17, by whose turn it was: the sequencer's runs HALT, and of the others only an edge leaves a record. -/
theorem haltLeftOnlyByReset : Obligations.HaltLeftOnlyByReset := by
  refine ⟨exec_halt, fun s t hph hpor hwdt hstep => ?_⟩
  obtain ⟨-, rfl | ⟨-, -, hexec⟩ | ⟨-, rfl⟩ | ⟨-, -, rfl⟩ | ⟨hpick, -⟩ | ⟨hpick, -⟩ | ⟨_, _, -, rfl⟩⟩ := step_turns hstep
  · exact ⟨hph, rfl, .inl rfl⟩
  · have hhold : exec (decodePhase s.ph) s.endTurn = .next s.endTurn := exec_of_phaseHolds (s := s.endTurn) (.inl hph)
    cases hhold.symm.trans hexec
    exact ⟨hph, rfl, .inl rfl⟩
  · exact ⟨hph, rfl, .inr rfl⟩
  · exact ⟨hph, rfl, .inl rfl⟩
  · exact absurd hpick hpor
  · exact absurd hpick hwdt
  · exact ⟨hph, rfl, .inl rfl⟩

/-! ### CONFIG and the reserved codes (R87, R90) -/

/-- Settles O1: writing the profile appends one write per entry. -/
theorem configResult : Obligations.ConfigResult := by
  intro s
  have hprofile : exec .config s = .next ((emitDiag (.config s.par.mode s.par.regProfile.length)
      (writeProfile s.par.regProfile s)).toPhase Phase.calBeginHigh) := rfl
  rw [hprofile, writeProfile_eq]
  rfl

/-- The codes of the three reserved rows, as numbers (R64). -/
theorem reserved12_code : ∀ low : BitVec 1, 0b1001#4 ++ low = BitVec.ofNat 5 (0x12 + low.toNat) := by
  decide

theorem reserved14_code : ∀ low : BitVec 2, 0b101#3 ++ low = BitVec.ofNat 5 (0x14 + low.toNat) := by
  decide

theorem reserved18_code : ∀ low : BitVec 3, 0b11#2 ++ low = BitVec.ofNat 5 (0x18 + low.toNat) := by
  decide

/-- A reserved code is dispatched to the row that holds its open bits, and the row faults with that code (R90). -/
theorem exec_decodePhase_reserved {c : BitVec 5} (hc : 0x12 ≤ c.toNat) (s : State) :
    exec (decodePhase c) s = .next (raiseModelFault (.reservedPhase c) s) := by
  obtain ⟨low, hrow, rfl⟩ | ⟨low, hrow, rfl⟩ | ⟨low, hrow, rfl⟩ := decodePhase_reserved c hc <;> rw [hrow] <;> rfl

/-- Settles O18: each row faults with its fixed bits and its open bits side by side, which is the code. -/
theorem reservedPhaseResult : Obligations.ReservedPhaseResult := by
  refine fun s => ⟨fun low => ?_, fun low => ?_, fun low => ?_, fun c hc => exec_decodePhase_reserved hc s⟩
  · rw [← reserved12_code]
    rfl
  · rw [← reserved14_code]
    rfl
  · rw [← reserved18_code]
    rfl

/-! ### Whose turn it is (R79, R81, R82, R113) -/

/-- The interrupt agent may step where an interrupt is pending, any other event always. -/
theorem mayStep_event {s : State} {e : BitVec 2} (h : e = 3#2 → s.irqPend = true) : s.mayStep (.event e) = true := by
  by_cases he : e = 3#2
  · simp [State.mayStep, he, h he]
  · simp [State.mayStep, he]

/-- A turn of the trace reader fetches the row its word decodes to. -/
theorem fetch_word_of_decodePort {w : BitVec 32} {i : Instr} (h : decodePort w = .ok i) (s : State) :
    s.fetch (.word w) = some i := by
  simp [State.fetch, h, Except.toOption]

section
variable {s : State} (hm : s.mfault = none)
include hm

/-- With no interrupt pending, the sequencer's turn runs the phase in PH (R82). -/
theorem step_sequencer (hp : s.pick = .sequencer) (hirq : s.irqPend = false) :
    step s = exec (decodePhase s.ph) s.endTurn :=
  step_runs hm (by rw [hp, fetch_sequencer]) (by simp [hp, State.mayStep, hirq])

/-- A pending interrupt pre-empts the sequencer (R81, R115). -/
theorem step_sequencer_pending (hp : s.pick = .sequencer) (hirq : s.irqPend = true) : step s = .next s.endTurn :=
  step_holds hm (by rw [hp, fetch_sequencer]) (by simp [hp, State.mayStep, hirq])

/-- With nothing pending, the interrupt agent has no step (R113). -/
theorem step_isr_idle (hp : s.pick = .event 3#2) (hirq : s.irqPend = false) : step s = .next s.endTurn :=
  step_holds hm (by rw [hp, fetch_event]) (by simp [hp, State.mayStep, hirq])

/-- An event whose agent may step is run (R112, R113, R160). -/
theorem step_event {e : BitVec 2} (hp : s.pick = .event e) (he : e = 3#2 → s.irqPend = true) :
    step s = exec (decodeEvent e) s.endTurn :=
  step_runs hm (by rw [hp, fetch_event]) (by rw [hp, mayStep_event he])

/-- A port word that a row of the table admits is run. -/
theorem step_word {w : BitVec 32} {i : Instr} (hp : s.pick = .word w) (hw : decodePort w = .ok i) :
    step s = exec i s.endTurn :=
  step_runs hm (by rw [hp, fetch_word_of_decodePort hw]) (by rw [hp, State.mayStep])

end

/-- Settles O25: one rule for each kind of turn. -/
theorem stepRunsDecodedInstruction : Obligations.StepRunsDecodedInstruction := fun _ hm =>
  ⟨step_sequencer hm, fun _ => step_event hm, fun _ _ => step_word hm⟩

/-- Settles O26: a pending interrupt takes the sequencer's turn from it; with none pending its phase is run, and the phase holds. -/
theorem holdsWhereNotEnabled : Obligations.HoldsWhereNotEnabled := by
  refine fun s hm => ⟨fun hp hidle => ?_, step_isr_idle hm⟩
  by_cases hirq : s.irqPend = true
  · exact step_sequencer_pending hm hp hirq
  · have hholds : s.endTurn.PhaseHolds := hidle.resolve_left hirq
    exact (step_sequencer hm hp (Bool.eq_false_of_not_eq_true hirq)).trans (exec_of_phaseHolds hholds)

/-! ### Draws (R83) -/

/-- A triple is written by three records, and a record leaves the answers. -/
theorem answerAt_writeTriple (w : CalResult) (s : State) (k : Nat) : (writeTriple w s).answerAt k = s.answerAt k := by
  simp [writeTriple]

/-- The profile's writes are records in TRACE, which no answer depends on. -/
theorem answerAt_writeProfile (l : List (Addr × Byte)) (s : State) (k : Nat) :
    (writeProfile l s).answerAt k = s.answerAt k := by
  rw [writeProfile_eq]
  rfl

/-- Settles O53: each of the writes is one or more records. -/
theorem answersIgnoreWrites : Obligations.AnswersIgnoreWrites := fun s k _ _ _ _ w l =>
  ⟨answerAt_record s _ k, answerAt_record s _ k, answerAt_record s _ k, answerAt_writeTriple w s k,
    answerAt_writeProfile l s k⟩

end Sys2Proof.Machine
end

section
/-!
PROOFS, family 41_calibration: what each phase of the Calibration Engine does (41_calibration.md R93 to R101); then runs of it with
the sequencer's turns and the radio's answers listed: a run of polls, a run that settles, a run that times out (R93, R143), and the
whole calibration (R103).
-/

namespace Sys2Proof.Machine

/-! ### CAL_BEGIN_HIGH, CAL_BEGIN_MID and CAL_APPLY (R94, R95, R98, R101) -/

/-- CAL_BEGIN_HIGH (R95), with the machine's own sum of two bytes. -/
theorem exec_calBeginHigh (s : State) : exec .calBeginHigh s = .next
    { s.consume 1 with
      ph := Phase.calPollHigh
      calBase := some (s.answerAt 0)
      polls := some 0
      trace := s.trace ++
        [.port (.write s.par.aVcoCap 0x00#8), .port (.read s.par.aCalCtrl (s.answerAt 0)),
         .port (.write s.par.aCalCtrl (s.answerAt 0 + s.par.vcdacStartOffset)), .port (.strobe s.par.cmdScal)] } := by
  have hrecords : exec .calBeginHigh s = .next
      { [.port (.write s.par.aVcoCap 0x00#8), .port (.read s.par.aCalCtrl (s.answerAt 0)),
         .port (.write s.par.aCalCtrl (s.answerAt 0 + s.par.vcdacStartOffset)),
         .port (.strobe s.par.cmdScal)].foldl State.record (s.consume 1) with
        ph := Phase.calPollHigh
        calBase := some (s.answerAt 0)
        polls := some 0 } := rfl
  rw [hrecords, record_foldl]
  rfl

/-- Settles O2: a sum of bytes is the sum of their numbers mod 2^8. -/
theorem calBeginHighResult : Obligations.CalBeginHighResult := by
  intro s b
  have hsum : BitVec.ofNat 8 ((b.toNat + s.par.vcdacStartOffset.toNat) % 2 ^ 8) = b + s.par.vcdacStartOffset := by
    bv_omega
  rw [hsum]
  exact exec_calBeginHigh s

/-- Settles O5: with CAL_BASE written its read goes on, and the rest is three records. -/
theorem calBeginMidResult : Obligations.CalBeginMidResult := by
  intro s b hb
  simp [exec, execCalBeginMid, hb, State.record, State.toPhase]

/-- A triple is written in the listed order (R101). -/
theorem writeTriple_eq (w : CalResult) (s : State) :
    writeTriple w s = { s with
      trace := s.trace ++ [.port (.write s.par.aFsVco2 w.vco2), .port (.write s.par.aFsVco4 w.vco4),
        .port (.write s.par.aFsChp w.chp)] } := by
  simp [writeTriple, State.record]

theorem armPhase_eq (m : Mode) : armPhase m = if m = .tx then 0x08#5 else 0x0C#5 := by
  cases m <;> rfl

/-- CAL_APPLY with both triples written (R101). -/
theorem exec_calApply {s : State} {h m : CalResult} (hh : s.calH = some h) (hm : s.calM = some m) :
    let w := calSelect h m
    exec .calApply s = .next
      { s with
        ph := if s.par.mode = .tx then 0x08#5 else 0x0C#5
        trace := s.trace ++
          [.port (.write s.par.aFsVco2 w.vco2), .port (.write s.par.aFsVco4 w.vco4),
           .port (.write s.par.aFsChp w.chp), .kick] } := by
  have happly : exec .calApply s = .next ((kick (writeTriple (calSelect h m) s)).toPhase (armPhase s.par.mode)) := by
    simp only [exec, execCalApply, hh, hm, readWorking_some]
  rw [happly, writeTriple_eq, armPhase_eq]
  simp [State.record, State.toPhase]

/-- The selection takes the high triple where its vco2 is strictly greater, and the mid one otherwise (R94). -/
theorem calSelect_eq {h m w : CalResult}
    (hw : m.vco2.toNat < h.vco2.toNat ∧ w = h ∨ h.vco2.toNat ≤ m.vco2.toNat ∧ w = m) : calSelect h m = w := by
  obtain ⟨hgt, rfl⟩ | ⟨hle, rfl⟩ := hw
  · exact if_pos hgt
  · exact if_neg (Nat.not_lt.2 hle)

/-- Settles O6: the triple written is the one selected, and one of the two cases of the selection holds. -/
theorem calApplyResult : Obligations.CalApplyResult := by
  intro s h m w hh hm hw
  rw [← calSelect_eq hw]
  exact exec_calApply hh hm

/-! ### The settle polls (R93, R96, R99) -/

/-- The poll phase of a run polls (R96, R99). -/
theorem exec_poll (r : CalRun) (s : State) : exec (decodePhase (ownPhase r)) s = .next (calPoll r s) := by
  cases r <;> rfl

section
variable {s : State} {n : Nat} (r : CalRun) (hn : s.polls = some n)
include hn

/-- A read that matches goes to the run's snapshot, whatever the poll bound. -/
theorem calPoll_settled (hm : s.answerAt 0 = s.par.marcSettled) : calPoll r s = (s.polled n).toPhase (snapPhase r) := by
  obtain ⟨-, h⟩ | ⟨hne, -⟩ | ⟨hne, -⟩ := calPoll_cases r hn
  · exact h
  · exact absurd hm hne
  · exact absurd hm hne

/-- The CAL_POLL_LIMIT-th read that does not match raises CalibrationTimeout. -/
theorem calPoll_timedOut (hm : s.answerAt 0 ≠ s.par.marcSettled) (hlast : s.par.calPollLimit = some (n + 1)) :
    calPoll r s = raiseCalTimeout r (n + 1) (s.polled n) := by
  obtain ⟨heq, -⟩ | ⟨-, -, h⟩ | ⟨-, hne, -⟩ := calPoll_cases r hn
  · exact absurd heq hm
  · exact h
  · exact absurd hlast hne

/-- Any other read polls again. -/
theorem calPoll_again (hm : s.answerAt 0 ≠ s.par.marcSettled) (hmore : s.par.calPollLimit ≠ some (n + 1)) :
    calPoll r s = (s.polled n).toPhase (ownPhase r) := by
  obtain ⟨heq, -⟩ | ⟨-, heq, -⟩ | ⟨-, -, h⟩ := calPoll_cases r hn
  · exact absurd heq hm
  · exact absurd heq hmore
  · exact h

end

/-- Settles O3: both phases poll, and a poll has three ends. -/
theorem calPollResult : Obligations.CalPollResult := by
  intro s i r own snap hphase m read n hn
  obtain ⟨hexec, rfl, rfl⟩ : exec i s = .next (calPoll r s) ∧ own = ownPhase r ∧ snap = snapPhase r := by
    obtain ⟨rfl, rfl, rfl, rfl⟩ | ⟨rfl, rfl, rfl, rfl⟩ := hphase <;> exact ⟨rfl, rfl, rfl⟩
  rw [hexec]
  refine ⟨fun hm => ?settled, fun hm hlast => ?timedOut, fun hm hmore => ?again⟩
  case settled =>
    rw [calPoll_settled r hn hm]
    rfl
  case timedOut =>
    rw [calPoll_timedOut r hn hm hlast]
    rfl
  case again =>
    rw [calPoll_again r hn hm hmore]
    rfl

/-! ### The snapshots (R97, R100) -/

/-- The reads of a triple, in the listed order. -/
def tripleReads (p : Params) (w : CalResult) : List Record :=
  [.port (.read p.aFsVco2 w.vco2), .port (.read p.aFsVco4 w.vco4), .port (.read p.aFsChp w.chp)]

/-- The triple the radio answers next. -/
def State.nextTriple (s : State) : CalResult :=
  { vco2 := s.answerAt 0, vco4 := s.answerAt 1, chp := s.answerAt 2 }

/-- A snapshot reads the next three answers. -/
theorem readTriple_eq (s : State) :
    readTriple s = (s.nextTriple, { s.consume 3 with trace := s.trace ++ tripleReads s.par s.nextTriple }) := by
  simp only [readTriple, portRead_fst, portRead_snd, answerAt_record, answerAt_consume, record_consume, consume_consume]
  have hrecords := record_foldl (tripleReads s.par s.nextTriple) (s.consume 3)
  exact congrArg (Prod.mk s.nextTriple) hrecords

/-- The register a run's triple is stored in. -/
def State.storeTriple (s : State) (r : CalRun) (w : CalResult) : State :=
  match r with
  | .high => { s with calH := some w }
  | .mid => { s with calM := some w }

/-- The phase after a run's snapshot. -/
def afterSnap : CalRun → BitVec 5
  | .high => Phase.calBeginMid
  | .mid => Phase.calApply

/-- The snapshot phase of a run reads the triple and stores it (R97, R100). -/
theorem exec_snap (r : CalRun) (s : State) :
    exec (decodePhase (snapPhase r)) s = .next
      (({ s.consume 3 with trace := s.trace ++ tripleReads s.par s.nextTriple }.storeTriple r s.nextTriple).toPhase
        (afterSnap r)) := by
  have hread : exec (decodePhase (snapPhase r)) s =
      .next (((readTriple s).2.storeTriple r (readTriple s).1).toPhase (afterSnap r)) := by
    cases r <;> rfl
  rw [hread, readTriple_eq]

/-- Settles O4: both phases read the same triple. -/
theorem calSnapResult : Obligations.CalSnapResult := fun s =>
  ⟨exec_snap .high s, exec_snap .mid s⟩

/-! ### Turns of the sequencer with the radio's answers listed (R79, R83) -/

/-- `s` may give the sequencer its turns: no model fault, no interrupt pending; the radio's coming answers are `as` and the coming
turns `ts`. -/
structure State.Listed (s : State) (as : List Byte) (ts : List Turn) : Prop where
  running : s.mfault = none
  idle : s.irqPend = false
  answers : s.answers = as
  turns : s.script = ts

/-- `s` after `k` turns and `j` draws, with the answers `as` and the turns `ts` to come. -/
def State.elapsed (s : State) (k j : Nat) (as : List Byte) (ts : List Turn) : State :=
  { s with script := ts, turn := s.turn + k, answers := as, draws := s.draws + j }

/-- A run of one step. -/
theorem run_one {s t : State} (h : step s = .next t) : core.run 1 s = .next t :=
  run_step h 0

/-- A run that goes on from where another ended. -/
theorem run_trans {s t u : State} {j k : Nat} (hj : core.run j s = .next t) (hk : core.run k t = .next u) :
    core.run (j + k) s = .next u :=
  (run_add hj k).trans hk

section
variable {s : State} {as : List Byte} {ts : List Turn}

/-- The sequencer's turn runs the phase in PH once the turn is taken from the list. -/
theorem State.Listed.step_eq {c : BitVec 5} (h : s.Listed as (.sequencer :: ts)) (hp : s.ph = c) :
    step s = exec (decodePhase c) (s.elapsed 1 0 as ts) := by
  have hturn : s.endTurn = s.elapsed 1 0 as ts := by
    simp [State.endTurn, State.elapsed, h.answers, h.turns]
  rw [← hp, ← hturn]
  exact step_sequencer h.running (pick_cons h.turns) h.idle

/-! ### Each calibration phase as a turn -/

/-- CAL_BEGIN_HIGH's turn, `b` being the radio's answer. -/
theorem step_calBeginHigh {b : Byte} (h : s.Listed (b :: as) (.sequencer :: ts)) (hp : s.ph = Phase.calBeginHigh) :
    step s = .next
      { s.elapsed 1 1 as ts with
        ph := Phase.calPollHigh
        calBase := some b
        polls := some 0
        trace := s.trace ++
          [.port (.write s.par.aVcoCap 0x00#8), .port (.read s.par.aCalCtrl b),
           .port (.write s.par.aCalCtrl (b + s.par.vcdacStartOffset)), .port (.strobe s.par.cmdScal)] } :=
  (h.step_eq hp).trans (exec_calBeginHigh _)

/-- CAL_BEGIN_MID's turn. -/
theorem step_calBeginMid {b : Byte} (h : s.Listed as (.sequencer :: ts)) (hp : s.ph = Phase.calBeginMid)
    (hb : s.calBase = some b) :
    step s = .next
      { s.elapsed 1 0 as ts with
        ph := Phase.calPollMid
        polls := some 0
        trace := s.trace ++
          [.port (.write s.par.aVcoCap 0x00#8), .port (.write s.par.aCalCtrl b), .port (.strobe s.par.cmdScal)] } :=
  (h.step_eq hp).trans (calBeginMidResult _ b hb)

/-- The snapshot's turn, `w` being the radio's three answers. -/
theorem step_snap {r : CalRun} {w : CalResult} (h : s.Listed (w.vco2 :: w.vco4 :: w.chp :: as) (.sequencer :: ts))
    (hp : s.ph = snapPhase r) :
    step s = .next
      (({ s.elapsed 1 3 as ts with trace := s.trace ++ tripleReads s.par w }.storeTriple r w).toPhase (afterSnap r)) :=
  (h.step_eq hp).trans (exec_snap r _)

/-- CAL_APPLY's turn. -/
theorem step_calApply {hi mid : CalResult} (h : s.Listed as (.sequencer :: ts)) (hp : s.ph = Phase.calApply)
    (hh : s.calH = some hi) (hm : s.calM = some mid) :
    let w := calSelect hi mid
    step s = .next
      { s.elapsed 1 0 as ts with
        ph := if s.par.mode = .tx then 0x08#5 else 0x0C#5
        trace := s.trace ++
          [.port (.write s.par.aFsVco2 w.vco2), .port (.write s.par.aFsVco4 w.vco4),
           .port (.write s.par.aFsChp w.chp), .kick] } :=
  (h.step_eq hp).trans (exec_calApply hh hm)

/-! ### A run of polls (R93) -/

/-- `s` after one poll for each of the answers `xs`, POLLS having been `n`, with the answers `as` and the turns `ts` to come. -/
def State.afterPolls (s : State) (n : Nat) (xs : List Byte) (as : List Byte) (ts : List Turn) : State :=
  { s.elapsed xs.length xs.length as ts with
    polls := some (n + xs.length)
    trace := s.trace ++ xs.map fun x => .port (.read s.par.aMarcState x) }

/-- Polls add up. -/
theorem afterPolls_append (s : State) (n : Nat) (xs ys as' : List Byte) (ts' : List Turn) :
    (s.afterPolls n xs as ts).afterPolls (n + xs.length) ys as' ts' = s.afterPolls n (xs ++ ys) as' ts' := by
  simp [State.afterPolls, State.elapsed, Nat.add_assoc]

/-- Before any poll `s` is as it stands, the lists to come being its own. -/
theorem State.Listed.afterPolls_nil {n : Nat} (h : s.Listed as ts) (hn : s.polls = some n) :
    s.afterPolls n [] as ts = s := by
  simp [State.afterPolls, State.elapsed, ← hn, ← h.answers, ← h.turns]

section
variable {r : CalRun} {n : Nat} {x : Byte} (h : s.Listed (x :: as) (.sequencer :: ts)) (hp : s.ph = ownPhase r)
  (hn : s.polls = some n)
include h hp

/-- A poll phase's turn polls. -/
theorem step_poll : step s = .next (calPoll r (s.elapsed 1 0 (x :: as) ts)) :=
  (h.step_eq hp).trans (exec_poll r _)

include hn

/-- A settled poll's turn. -/
theorem step_poll_settled (hx : x = s.par.marcSettled) :
    step s = .next ((s.afterPolls n [x] as ts).toPhase (snapPhase r)) :=
  (step_poll h hp).trans (congrArg Host.Outcome.next (calPoll_settled r hn hx))

/-- The turn of the last poll the bound allows, when it does not settle. -/
theorem step_poll_timedOut (hx : x ≠ s.par.marcSettled) (hlast : s.par.calPollLimit = some (n + 1)) :
    step s = .next (raiseCalTimeout r (n + 1) (s.afterPolls n [x] as ts)) :=
  (step_poll h hp).trans (congrArg Host.Outcome.next (calPoll_timedOut r hn hx hlast))

/-- Any other poll's turn: PH stays. -/
theorem step_poll_again (hx : x ≠ s.par.marcSettled) (hmore : s.par.calPollLimit ≠ some (n + 1)) :
    step s = .next (s.afterPolls n [x] as ts) := by
  have hpoll := (step_poll h hp).trans (congrArg Host.Outcome.next (calPoll_again r hn hx hmore))
  rw [← hp] at hpoll
  exact hpoll

end

section
variable {r : CalRun} {n : Nat} {us : List Byte} (hp : s.ph = ownPhase r) (hn : s.polls = some n)
  (hus : ∀ x ∈ us, x ≠ s.par.marcSettled)
include hp hn hus

/-- Polls that do not settle and stay below the bound: the run is still in its poll phase. -/
theorem run_polls_unsettled (hbelow : ∀ k, s.par.calPollLimit = some k → n + us.length < k)
    (h : s.Listed (us ++ as) (List.replicate us.length .sequencer ++ ts)) :
    core.run us.length s = .next (s.afterPolls n us as ts) := by
  induction us generalizing s n with
  | nil => exact congrArg Host.Outcome.next (h.afterPolls_nil hn).symm
  | cons x us ih =>
    obtain ⟨hx, hrest⟩ := List.forall_mem_cons.1 hus
    have hmore : s.par.calPollLimit ≠ some (n + 1) := fun hk => by simpa using hbelow _ hk
    have hbelow' : ∀ k, s.par.calPollLimit = some k → n + 1 + us.length < k := fun k hk => by
      simpa [Nat.add_assoc, Nat.add_comm] using hbelow k hk
    have hstep : step s =
        .next (s.afterPolls n [x] (us ++ as) (List.replicate us.length .sequencer ++ ts)) :=
      step_poll_again h hp hn hx hmore
    calc core.run (us.length + 1) s
      _ = core.run us.length (s.afterPolls n [x] (us ++ as) (List.replicate us.length .sequencer ++ ts)) :=
        run_step hstep us.length
      _ = .next ((s.afterPolls n [x] _ _).afterPolls (n + 1) us as ts) :=
        ih hp rfl hrest hbelow' ⟨h.running, h.idle, rfl, rfl⟩
      _ = .next (s.afterPolls n (x :: us) as ts) := congrArg Host.Outcome.next (afterPolls_append s n [x] us as ts)

/-- Polls of which only the last settles (R93). -/
theorem run_polls_settled (hbelow : ∀ k, s.par.calPollLimit = some k → n + us.length < k)
    (h : s.Listed (us ++ s.par.marcSettled :: as) (List.replicate us.length .sequencer ++ .sequencer :: ts)) :
    core.run (us.length + 1) s = .next ((s.afterPolls n (us ++ [s.par.marcSettled]) as ts).toPhase (snapPhase r)) := by
  rw [← afterPolls_append]
  exact run_trans (run_polls_unsettled hp hn hus hbelow h)
    (run_one (step_poll_settled ⟨h.running, h.idle, rfl, rfl⟩ hp rfl rfl))

/-- Polls of which none settles, up to the bound (R93, R143). -/
theorem run_polls_timedOut {x : Byte} (hx : x ≠ s.par.marcSettled) (hlimit : s.par.calPollLimit = some (n + us.length + 1))
    (h : s.Listed (us ++ x :: as) (List.replicate us.length .sequencer ++ .sequencer :: ts)) :
    core.run (us.length + 1) s = .next (raiseCalTimeout r (n + us.length + 1) (s.afterPolls n (us ++ [x]) as ts)) := by
  have hbelow : ∀ k, s.par.calPollLimit = some k → n + us.length < k := fun k hk => by
    cases hlimit.symm.trans hk
    exact Nat.lt_succ_self _
  rw [← afterPolls_append]
  exact run_trans (run_polls_unsettled hp hn hus hbelow h)
    (run_one (step_poll_timedOut ⟨h.running, h.idle, rfl, rfl⟩ hp rfl hx hlimit))

end

/-! ### The two runs of a calibration, and the whole of it (R93, R103) -/

/-- A run from its first poll (R93, R97, R100): the polls settle, and the triple is read and stored. -/
theorem run_calRun {r : CalRun} {us : List Byte} {w : CalResult} (hp : s.ph = ownPhase r) (hn : s.polls = some 0)
    (hus : ∀ x ∈ us, x ≠ s.par.marcSettled) (hbelow : ∀ k, s.par.calPollLimit = some k → us.length < k)
    (h : s.Listed (us ++ s.par.marcSettled :: w.vco2 :: w.vco4 :: w.chp :: as)
      (List.replicate us.length .sequencer ++ .sequencer :: .sequencer :: ts)) :
    core.run (us.length + 2) s = .next
      { (s.storeTriple r w).elapsed (us.length + 2) (us.length + 4) as ts with
        ph := afterSnap r
        polls := some (us.length + 1)
        trace := s.trace ++ us.map (fun x => .port (.read s.par.aMarcState x))
          ++ [.port (.read s.par.aMarcState s.par.marcSettled)] ++ tripleReads s.par w } := by
  have hpolls := run_polls_settled hp hn hus (by simpa using hbelow) h
  refine (run_trans hpolls (run_one (step_snap (w := w) ⟨h.running, h.idle, rfl, rfl⟩ rfl))).trans ?_
  cases r <;> simp [State.afterPolls, State.elapsed, State.storeTriple, State.toPhase, Nat.add_assoc]

end

/-- A whole calibration's turns, phase by phase. -/
theorem replicate_calibration (u v : Nat) (ts : List Turn) :
    List.replicate (u + v + 7) Turn.sequencer ++ ts =
      .sequencer :: (List.replicate u .sequencer ++ .sequencer :: .sequencer :: .sequencer ::
        (List.replicate v .sequencer ++ .sequencer :: .sequencer :: .sequencer :: ts)) := by
  have hturns : u + v + 7 = 1 + (u + (3 + (v + 3))) := by omega
  simp [hturns, List.replicate_add]

/-- Settles O48: CAL_BEGIN_HIGH's turn, the high run, CAL_BEGIN_MID's turn, the mid run and CAL_APPLY's turn, one after another. -/
theorem calibrationRun : Obligations.CalibrationRun := by
  intro s b us vs h m more later hm hirq hph hus hvs hbelow hans hscript w poll snap
  have hlisted : s.Listed _ _ := ⟨hm, hirq, hans, hscript.trans (replicate_calibration ..)⟩
  have hbegin := step_calBeginHigh hlisted hph
  have hhigh := run_trans (run_one hbegin)
    (run_calRun (r := .high) (w := h) rfl rfl hus (fun k hk => (hbelow k hk).1) ⟨hm, hirq, rfl, rfl⟩)
  have hmiddle := run_trans hhigh (run_one (step_calBeginMid ⟨hm, hirq, rfl, rfl⟩ rfl rfl))
  have hmid := run_trans hmiddle
    (run_calRun (r := .mid) (w := m) rfl rfl hvs (fun k hk => (hbelow k hk).2) ⟨hm, hirq, rfl, rfl⟩)
  have happly := run_trans hmid (run_one (step_calApply ⟨hm, hirq, rfl, rfl⟩ rfl rfl rfl))
  have hturns : 1 + (us.length + 2) + 1 + (vs.length + 2) + 1 = us.length + vs.length + 7 := by omega
  rw [hturns] at happly
  refine ⟨_, happly, rfl, rfl, rfl, rfl, rfl, rfl, rfl, hm, rfl, rfl, hirq, rfl, rfl, rfl, rfl, ?_⟩
  simp only [List.append_assoc]
  rfl

/-- Settles O49: the last of the `k` reads is the one that times out. -/
theorem calibrationTimeoutRun : Obligations.CalibrationTimeoutRun := by
  intro s r k us more later hm hirq hph hpolls hlimit hlen hus hans hscript
  have hp : s.ph = ownPhase r := by cases r <;> exact hph
  obtain rfl | ⟨xs, x, rfl⟩ := us.eq_nil_or_concat'
  case inl => exact absurd (config_pollLimit_pos s.cfg hlimit) (by simp [← hlen])
  case inr =>
    obtain ⟨hxs, hx⟩ : (∀ y ∈ xs, y ≠ s.par.marcSettled) ∧ x ≠ s.par.marcSettled := by
      simpa [or_imp, forall_and] using hus
    obtain rfl : 0 + xs.length + 1 = k := by simpa using hlen
    have hlisted : s.Listed (xs ++ x :: more) (List.replicate xs.length .sequencer ++ .sequencer :: later) :=
      ⟨hm, hirq, by simpa using hans, by simpa [List.replicate_succ'] using hscript⟩
    have hrun := run_polls_timedOut hp hpolls hxs hx hlimit hlisted
    rw [Nat.zero_add] at hrun ⊢
    exact ⟨_, hrun, rfl, rfl, by simp [State.afterPolls], by simp [State.afterPolls]⟩

end Sys2Proof.Machine
end

section
/-!
PROOFS, family 42_packet_codec: the classifier's verdicts (42_packet_codec.md R107, R110), the deframer's two results (R108) and
the round trip from the framer through the deframer (R109).
-/

namespace Sys2Proof.Machine

/-! ### The classifier (R107) -/

/-- R107's `s[4:0]`, read as a number. -/
theorem extractLsb'_low_eq_iff (s : Byte) (e : BitVec 5) : s.extractLsb' 0 5 = e ↔ s.toNat % 32 = e.toNat := by
  rw [← BitVec.toNat_inj]
  simp

/-- Settles O47: of the classifier's three exclusive cases, each clause's hypotheses leave one. -/
theorem classificationLaw : Obligations.ClassificationLaw := by
  intro e s n
  have hlow := extractLsb'_low_eq_iff s e
  obtain ⟨hn, hv⟩ | ⟨hn, he, hv⟩ | ⟨hn, he, hv⟩ := classifyRx_cases e s n
  case inl => exact ⟨fun _ => hv, fun h => absurd hn h, fun h => absurd hn h⟩
  case inr.inl => exact ⟨fun h => absurd h hn, fun _ _ => hv, fun _ h => absurd (hlow.1 he) h⟩
  case inr.inr => exact ⟨fun h => absurd h hn, fun _ h => absurd (hlow.2 h) he, fun _ _ => hv⟩

/-! ### The deframer (R108) -/

/-- A length byte without room for the sequence, above the buffer's capacity, or above the number of bytes. -/
theorem parseRxPacket_eq_framingError {cap : Nat} {l : Byte} {rest : List Byte}
    (h : l.toNat < 3 ∨ cap < l.toNat ∨ rest.length + 1 < l.toNat) :
    parseRxPacket cap (l :: rest) = .framingError l (rest.length + 1) :=
  if_pos h

/-- A length byte that counts itself, the two sequence bytes and `pl`: what follows `pl` does not matter. -/
theorem parseRxPacket_eq_packet {cap : Nat} {l : Byte} {pl : List Byte} (hlen : l.toNat = 3 + pl.length)
    (hcap : l.toNat ≤ cap) (hi lo : Byte) (tail : List Byte) :
    parseRxPacket cap (l :: hi :: lo :: (pl ++ tail)) = .packet l (hi ++ lo) pl := by
  have hgood : ¬ (l.toNat < 3 ∨ cap < l.toNat ∨ (l :: hi :: lo :: (pl ++ tail)).length < l.toNat) := by
    simp only [List.length_cons, List.length_append]
    omega
  have hpayload : (pl ++ tail).take (l.toNat - 3) = pl := List.take_left' (by omega)
  exact (if_neg hgood).trans (congrArg (Parsed.packet l (hi ++ lo)) hpayload)

/-- The sequence is big-endian: the high byte counts 256s. -/
theorem append_eq_ofNat (hi lo : Byte) : hi ++ lo = BitVec.ofNat 16 (hi.toNat * 256 + lo.toNat) := by
  have hvalue : (hi ++ lo).toNat = hi.toNat * 256 + lo.toNat := by
    rw [BitVec.toNat_append, ← Nat.shiftLeft_add_eq_or_of_lt lo.isLt, Nat.shiftLeft_eq]
  rw [← hvalue, BitVec.ofNat_toNat, BitVec.setWidth_eq]

/-- Settles O46: the deframer's two results, the sequence read as a number. -/
theorem parseResult : Obligations.ParseResult := by
  refine fun cap l rest => ⟨parseRxPacket_eq_framingError, ?packet⟩
  case packet =>
    rintro hi lo pl tail rfl hlen hcap
    rw [parseRxPacket_eq_packet hlen hcap, append_eq_ofNat]

/-! ### The framer, then the deframer (R109) -/

/-- The two sequence bytes of R106 hold the whole sequence value. -/
theorem seqBytes_append (q : SeqNum) : q.extractLsb' 8 8 ++ q.extractLsb' 0 8 = q := by
  rw [BitVec.extractLsb'_append_extractLsb'_eq_extractLsb' (by decide)]
  exact BitVec.extractLsb'_eq_self

/-- Deframing a framed payload whose length fits a byte and the buffer. -/
theorem parseRxPacket_buildTxPacket {cap : Nat} {pl : List Byte} (hbyte : 3 + pl.length < 256) (hcap : 3 + pl.length ≤ cap)
    (q : SeqNum) : parseRxPacket cap (buildTxPacket q pl) = .packet (BitVec.ofNat 8 (3 + pl.length)) q pl := by
  have hlen : (BitVec.ofNat 8 (3 + pl.length)).toNat = 3 + pl.length := Nat.mod_eq_of_lt hbyte
  have hparse := parseRxPacket_eq_packet hlen (hlen.trans_le hcap) (q.extractLsb' 8 8) (q.extractLsb' 0 8) []
  rwa [List.append_nil, seqBytes_append] at hparse

/-- Settles O45: an admitted configuration's packet is below FIFO_CAPACITY, so it fits RX_BUF_CAP and the length byte (R8). -/
theorem parseBuildRoundTrip : Obligations.ParseBuildRoundTrip := by
  intro c q pl hpl
  obtain ⟨hmin, hmax, hfifo, hbuf⟩ : 3 ≤ c.params.pktLenMax ∧ c.params.pktLenMax < c.params.fifoCapacity
      ∧ c.params.fifoCapacity ≤ c.params.rxBufCap ∧ c.params.rxBufCap ≤ 255 := config_capacities c
  exact parseRxPacket_buildTxPacket (by omega) (by omega) q

end Sys2Proof.Machine
end

section
/-!
PROOFS, family 43_handoff: an edge and its interrupt (43_handoff.md R112, R114); that the latch does not count edges (R118); and that
one edge makes one pass through the service of the wait it comes in (R119, 45_receive.md R133), whatever the radio answers.
-/

namespace Sys2Proof.Machine

/-! ### EDGE and ISR (R112, R114) -/

/-- Settles O19: EDGE's meaning is the edge operation. -/
theorem edgeResult : Obligations.EdgeResult := fun _ => rfl

/-- Settles O20: ISR's meaning is the interrupt operation. -/
theorem isrResult : Obligations.IsrResult := fun _ => rfl

/-! ### Edges, each with its interrupt (R118) -/

/-- `s` after `k` edges, each with its interrupt, and with the turns `ts` to come. -/
def State.interrupted (s : State) (k : Nat) (ts : List Turn) : State :=
  { s with
    evt := true
    irqPend := false
    trace := s.trace ++ List.replicate k .edge
    script := ts
    turn := s.turn + 2 * k }

/-- Interrupts add up. -/
theorem interrupted_interrupted (s : State) (j k : Nat) (ts ts' : List Turn) :
    (s.interrupted j ts).interrupted k ts' = s.interrupted (j + k) ts' := by
  simp [State.interrupted, Nat.mul_add, Nat.add_assoc]

/-- An edge and then its interrupt: the edge sets the pending bit, so the interrupt may step (R113). -/
theorem run_edge_isr {s : State} {ts : List Turn} (hm : s.mfault = none) (h : s.script = .event 2#2 :: .event 3#2 :: ts) :
    core.run 2 s = .next (s.interrupted 1 ts) := by
  have hedge : step s = .next (signalEdge s.endTurn) := step_event hm (pick_cons h) (absurd · (by decide))
  have hscript : (signalEdge s.endTurn).script = .event 3#2 :: ts := by simp [h]
  have hisr : step (signalEdge s.endTurn) = .next (takeInterrupt (signalEdge s.endTurn).endTurn) :=
    step_event (s := signalEdge s.endTurn) hm (pick_cons hscript) fun _ => rfl
  have hboth : takeInterrupt (signalEdge s.endTurn).endTurn = s.interrupted 1 ts := by
    simp [takeInterrupt, signalEdge, State.record, State.endTurn, State.interrupted, h]
  rw [← hboth]
  exact run_trans (run_one hedge) (run_one hisr)

/-- Any positive number of edges, each with its interrupt, leaves what one leaves, but for the records and the turns. -/
theorem run_edges {s : State} (k : Nat) {ts : List Turn} (hm : s.mfault = none)
    (h : s.script = (List.replicate (k + 1) [Turn.event 2#2, Turn.event 3#2]).flatten ++ ts) :
    core.run (2 * (k + 1)) s = .next (s.interrupted (k + 1) ts) := by
  induction k generalizing s with
  | zero => exact run_edge_isr hm h
  | succ k ih =>
    have hfirst := run_edge_isr hm h
    have hrest := ih (s := s.interrupted 1 _) hm rfl
    rw [interrupted_interrupted] at hrest
    have hrun := run_trans hfirst hrest
    rwa [Nat.add_comm 1, Nat.add_comm 2, ← Nat.mul_succ] at hrun

/-- Settles O51: each pair of turns sets the latch anew and clears the pending bit, which was clear before the first. -/
theorem edgesMergeInLatch : Obligations.EdgesMergeInLatch := by
  intro s k later hm hirq h
  rw [run_edges k hm h, State.interrupted, ← hirq]

/-! ### Waiting (R81, R121, R128) -/

/-- A wait whose event has come goes on. -/
theorem awaitEvent_of_evt {s : State} (he : s.evt = true) (c : BitVec 5) : awaitEvent c s = s.toPhase c := by
  simp [awaitEvent, he]

section
variable {s : State} {as : List Byte} {ts : List Turn}

/-- Where the phase in PH holds, any number of the sequencer's turns only pass. -/
theorem run_holds (n : Nat) (h : s.Listed as (List.replicate n .sequencer ++ ts)) (hp : s.PhaseHolds) :
    core.run n s = .next (s.elapsed n 0 as ts) := by
  induction n generalizing s with
  | zero =>
    obtain ⟨-, -, rfl, hscript⟩ := h
    subst hscript
    rfl
  | succ n ih =>
    have hstep : step s = .next (s.elapsed 1 0 as (List.replicate n .sequencer ++ ts)) :=
      (h.step_eq rfl).trans (exec_of_phaseHolds (s := s.elapsed 1 0 as _) hp)
    have hrest := ih (s := s.elapsed 1 0 as _) ⟨h.running, h.idle, rfl, rfl⟩ hp
    have hsum : (s.elapsed 1 0 as (List.replicate n .sequencer ++ ts)).elapsed n 0 as ts = s.elapsed (n + 1) 0 as ts := by
      simp [State.elapsed, Nat.add_comm, Nat.add_left_comm]
    exact (run_step hstep n).trans (hsum ▸ hrest)

/-- A wait's turn where the event has come. -/
theorem State.Listed.step_wait {c after : BitVec 5} (h : s.Listed as (.sequencer :: ts)) (hp : s.ph = c)
    (hc : ∀ u, exec (decodePhase c) u = .next (awaitEvent after u)) (he : s.evt = true) :
    step s = .next ((s.elapsed 1 0 as ts).toPhase after) :=
  calc step s
    _ = exec (decodePhase c) (s.elapsed 1 0 as ts) := h.step_eq hp
    _ = .next (awaitEvent after (s.elapsed 1 0 as ts)) := hc _
    _ = .next ((s.elapsed 1 0 as ts).toPhase after) :=
      congrArg Host.Outcome.next (awaitEvent_of_evt (s := s.elapsed 1 0 as ts) he after)

/-! ### One pass through a service (R119) -/

/-- One service later than `s`, `t` waits in phase `c` with the latch idle and one Kick more; SEQ is `q` and HB is `b`, and the
turns `ts` are to come. -/
structure ServedOnce (s : State) (c : BitVec 5) (q : SeqNum) (b : Bool) (ts : List Turn) (t : State) : Prop where
  ph : t.ph = c
  evt : t.evt = false
  listed : t.Listed t.answers ts
  kicks : t.trace.count .kick = s.trace.count .kick + 1
  seq : t.seq = q
  hb : t.hb = b

/-- In a wait the sequencer's further turns only pass. -/
theorem ServedOnce.run_holds {c : BitVec 5} {q : SeqNum} {b : Bool} {t : State} {n : Nat}
    (ht : ServedOnce s c q b (List.replicate n .sequencer ++ ts) t) (hc : c = Phase.txWait ∨ c = Phase.rxWait) :
    ∃ u, core.run n t = .next u ∧ ServedOnce s c q b ts u := by
  have hholds : t.PhaseHolds := .inr ⟨by rwa [ht.ph], ht.evt⟩
  exact ⟨_, Machine.run_holds n ht.listed hholds, { ht with listed := ⟨ht.listed.running, ht.listed.idle, rfl, rfl⟩ }⟩

/-- In a wait with the latch idle the sequencer has no step (R81). -/
theorem ServedOnce.not_enabled {c : BitVec 5} {q : SeqNum} {b : Bool} {t : State} (ht : ServedOnce s c q b ts t)
    (hc : c = Phase.txWait ∨ c = Phase.rxWait) : t.sequencerEnabled = false := by
  obtain rfl | rfl := hc <;> simp [State.sequencerEnabled, ht.ph, ht.evt]

/-! ### The transmit service (R120 to R123) -/

/-- TX_COMPLETE's turn. -/
theorem step_txComplete (h : s.Listed as (.sequencer :: ts)) (hp : s.ph = Phase.txComplete) :
    step s = .next
      { s.elapsed 1 0 as ts with ph := Phase.txDelay, evt := false, hb := !s.hb, seq := s.seq + 1 } :=
  h.step_eq hp

/-- TX_DELAY's turn. -/
theorem step_txDelay (h : s.Listed as (.sequencer :: ts)) (hp : s.ph = Phase.txDelay) :
    step s = .next (((s.elapsed 1 0 as ts).record .kick).toPhase Phase.txArm) :=
  h.step_eq hp

/-- TX_ARM's turn. -/
theorem step_txArm (h : s.Listed as (.sequencer :: ts)) (hp : s.ph = Phase.txArm) :
    step s = .next ((((s.elapsed 1 0 as ts).record
      (.port (.writeFifo (buildTxPacket s.seq (payloadOf s.par s.seq))))).record
      (.port (.strobe s.par.cmdStx))).toPhase Phase.txWait) :=
  h.step_eq hp

/-- From TX_WAIT with EVT = 1, four turns pass once through the transmit service. -/
theorem run_txService (h : s.Listed as (List.replicate 4 .sequencer ++ ts)) (hp : s.ph = Phase.txWait) (he : s.evt = true) :
    ∃ t, core.run 4 s = .next t ∧ ServedOnce s Phase.txWait (s.seq + 1) (!s.hb) ts t := by
  have hwait := run_one (h.step_wait hp (fun _ => rfl) he)
  have hcomplete := run_trans hwait (run_one (step_txComplete ⟨h.running, h.idle, rfl, rfl⟩ rfl))
  have hdelay := run_trans hcomplete (run_one (step_txDelay ⟨h.running, h.idle, rfl, rfl⟩ rfl))
  have harm := run_trans hdelay (run_one (step_txArm ⟨h.running, h.idle, rfl, rfl⟩ rfl))
  exact ⟨_, harm, rfl, rfl, ⟨h.running, h.idle, rfl, rfl⟩, by simp [State.elapsed], rfl, rfl⟩

/-! ### The receive service (R127 to R131) -/

/-- A drain, or the flush in its place, draws bytes and appends records, none of them a Kick (R130). -/
theorem drainAndReport_eq (n : Byte) (s : State) :
    ∃ k new, drainAndReport n s = { s.consume k with trace := s.trace ++ new } ∧ new.count .kick = 0 := by
  unfold drainAndReport
  split
  · exact ⟨0, [.port (.strobe s.par.cmdSfrx), .diag (.framingError none n.toNat)],
      by simp [State.record, State.consume], by simp⟩
  · have hrecords := record_foldl [.port (.readFifo n (portReadFifo n s).1),
      .diag (reportOf (parseRxPacket s.par.rxBufCap (portReadFifo n s).1))] (s.consume n.toNat)
    exact ⟨n.toNat, _, hrecords, by simp⟩

/-- RX_DRAIN with RXN written drains, reports and ends the service (R130). -/
theorem exec_rxDrain {n : Byte} (hn : s.rxn = some n) : exec .rxDrain s = .next (endService (drainAndReport n s)) := by
  simp only [exec, execRxDrain, hn, readWorking_some]

/-- `v` is `s` some way into a receive service, before its end: no Kick has been made, and `v` may give the sequencer the
turns `ts`. -/
structure InService (s : State) (ts : List Turn) (v : State) : Prop where
  listed : v.Listed v.answers ts
  kicks : v.trace.count .kick = s.trace.count .kick
  seq : v.seq = s.seq
  hb : v.hb = s.hb

/-- The sequencer's turn, taken from the list. -/
theorem InService.takeTurn {v : State} (hv : InService s (.sequencer :: ts) v) :
    InService s ts (v.elapsed 1 0 v.answers ts) :=
  ⟨⟨hv.listed.running, hv.listed.idle, rfl, rfl⟩, hv.kicks, hv.seq, hv.hb⟩

/-! What keeps within the service. -/

section
variable {v : State} (hv : InService s ts v)
include hv

theorem InService.record {r : Record} (hr : r ≠ .kick) : InService s ts (v.record r) :=
  ⟨{ hv.listed with }, by simp [hr, hv.kicks], hv.seq, hv.hb⟩

theorem InService.portRead (a : Addr) : InService s ts (portRead a v).2 :=
  ⟨⟨hv.listed.running, hv.listed.idle, rfl, hv.listed.turns⟩, by simp [hv.kicks], hv.seq, hv.hb⟩

theorem InService.toPhase (c : BitVec 5) : InService s ts (v.toPhase c) :=
  { hv with listed := { hv.listed with } }

theorem InService.writeRxn (n : Byte) : InService s ts { v with rxn := some n } :=
  { hv with listed := { hv.listed with } }

theorem InService.drainAndReport (n : Byte) : InService s ts (drainAndReport n v) := by
  obtain ⟨k, new, hwork, hnew⟩ := drainAndReport_eq n v
  rw [hwork]
  exact ⟨⟨hv.listed.running, hv.listed.idle, rfl, hv.listed.turns⟩, by simp [hnew, hv.kicks], hv.seq, hv.hb⟩

end

/-- The end of a service and the turn of RX_ARM: the next wait. -/
theorem InService.run_rearm {v : State} (hv : InService s (.sequencer :: ts) v) :
    ∃ t, core.run 1 (endService v) = .next t ∧ ServedOnce s Phase.rxWait s.seq s.hb ts t := by
  have hlisted : (endService v).Listed v.answers (.sequencer :: ts) := { hv.listed with }
  have harm : step (endService v) =
      .next ((((endService v).elapsed 1 0 v.answers ts).record (.port (.strobe v.par.cmdSrx))).toPhase Phase.rxWait) :=
    hlisted.step_eq rfl
  exact ⟨_, run_one harm, rfl, rfl, ⟨hv.listed.running, hv.listed.idle, rfl, rfl⟩,
    by simp [State.elapsed, endService, hv.kicks], hv.seq, hv.hb⟩

/-- RX_FLUSH ends the service in one turn. -/
theorem InService.run_flush {v : State} (hv : InService s (.sequencer :: ts) v) (hp : v.ph = Phase.rxFlush) :
    ∃ w, core.run 1 v = .next (endService w) ∧ InService s ts w :=
  ⟨_, run_one (hv.listed.step_eq hp), (hv.takeTurn.record (by simp)).record (by simp)⟩

/-- RX_DRAIN ends the service in one turn, RXN being written. -/
theorem InService.run_drain {v : State} {n : Byte} (hv : InService s (.sequencer :: ts) v) (hp : v.ph = Phase.rxDrain)
    (hn : v.rxn = some n) : ∃ w, core.run 1 v = .next (endService w) ∧ InService s ts w :=
  ⟨_, run_one ((hv.listed.step_eq hp).trans (exec_rxDrain hn)), hv.takeTurn.drainAndReport n⟩

/-- Either of the two phases that may follow RX_INSPECT ends the service in one turn. -/
theorem InService.run_action {v : State} (hv : InService s (.sequencer :: ts) v)
    (hnext : v.ph = Phase.rxFlush ∨ (v.ph = Phase.rxDrain ∧ ∃ n, v.rxn = some n)) :
    ∃ w, core.run 1 v = .next (endService w) ∧ InService s ts w := by
  obtain hp | ⟨hp, n, hn⟩ := hnext
  · exact hv.run_flush hp
  · exact hv.run_drain hp hn

/-- RX_INSPECT's turn (R129): the service has ended, or RX_FLUSH is next, or RX_DRAIN with RXN written. -/
theorem step_rxInspect (h : s.Listed as (.sequencer :: ts)) (hp : s.ph = Phase.rxInspect) :
    ∃ v, InService s ts v ∧ (step s = .next (endService v)
      ∨ (step s = .next v ∧ (v.ph = Phase.rxFlush ∨ (v.ph = Phase.rxDrain ∧ ∃ n, v.rxn = some n)))) := by
  let u : State := s.elapsed 1 0 as ts
  have hstep : step s = exec .rxInspect u := h.step_eq hp
  have hbegun : InService s ts u := ⟨⟨h.running, h.idle, rfl, rfl⟩, rfl, rfl, rfl⟩
  have hread := hbegun.portRead u.par.aNumRxBytes
  have hreads : InService s ts u.inspected := hread.portRead u.par.aMarcState
  obtain ⟨-, hexec⟩ | ⟨-, -, hexec⟩ | ⟨-, -, hexec⟩ := exec_rxInspect_cases u
  · exact ⟨_, hread, .inl (hstep.trans hexec)⟩
  · exact ⟨_, hreads.toPhase _, .inr ⟨hstep.trans hexec, .inl rfl⟩⟩
  · exact ⟨_, (hreads.writeRxn _).toPhase _, .inr ⟨hstep.trans hexec, .inr ⟨rfl, u.answerAt 0, rfl⟩⟩⟩

/-- From RX_WAIT with EVT = 1, four turns pass once through the receive service; where nothing was received, the fourth
holds in the next wait. -/
theorem run_rxService (h : s.Listed as (List.replicate 4 .sequencer ++ ts)) (hp : s.ph = Phase.rxWait) (he : s.evt = true) :
    ∃ t, core.run 4 s = .next t ∧ ServedOnce s Phase.rxWait s.seq s.hb ts t := by
  have hwait := h.step_wait hp (fun _ => rfl) he
  let u : State := (s.elapsed 1 0 as (List.replicate 3 .sequencer ++ ts)).toPhase Phase.rxInspect
  obtain ⟨v, hv, hend | ⟨hmore, hnext⟩⟩ := step_rxInspect (s := u) ⟨h.running, h.idle, rfl, rfl⟩ rfl
  case inl =>
    obtain ⟨t, harm, ht⟩ := hv.run_rearm
    obtain ⟨w, hhold, hw⟩ := ServedOnce.run_holds (n := 1) ht (.inr rfl)
    exact ⟨w, run_trans (run_trans (run_trans (run_one hwait) (run_one hend)) harm) hhold, { hw with }⟩
  case inr =>
    obtain ⟨w, hend, hw⟩ := hv.run_action hnext
    obtain ⟨t, harm, ht⟩ := hw.run_rearm
    exact ⟨t, run_trans (run_trans (run_trans (run_one hwait) (run_one hmore)) hend) harm, { ht with }⟩

end

/-- Settles O50: the edge and its interrupt set the latch, four turns pass once through the service, and the rest hold. -/
theorem singleEdgeSingleService : Obligations.SingleEdgeSingleService := by
  intro s n later hm _ _ hp h
  let u : State := s.interrupted 1 (List.replicate (5 + n) .sequencer ++ later)
  have hlatch : core.run 2 s = .next u := run_edge_isr hm h
  have hkicks : u.trace.count .kick = s.trace.count .kick := by simp [u, State.interrupted]
  have hlisted : u.Listed s.answers (List.replicate 4 .sequencer ++ (List.replicate (1 + n) .sequencer ++ later)) :=
    ⟨hm, rfl, rfl, by rw [← List.append_assoc, ← List.replicate_add, ← Nat.add_assoc]; rfl⟩
  have hcount : 7 + n = 2 + (4 + (1 + n)) := by omega
  rw [hcount]
  obtain htx | hrx := hp
  case inl =>
    obtain ⟨t, hserve, ht⟩ := run_txService hlisted htx rfl
    obtain ⟨v, hhold, hv⟩ := ht.run_holds (.inl rfl)
    exact ⟨v, run_trans hlatch (run_trans hserve hhold), hv.ph.trans htx.symm, hv.evt, hv.listed.idle, hv.listed.running,
      hkicks ▸ hv.kicks, hv.not_enabled (.inl rfl), fun _ => ⟨hv.seq, hv.hb⟩,
      fun hrx => absurd (htx.symm.trans hrx) (by decide)⟩
  case inr =>
    obtain ⟨t, hserve, ht⟩ := run_rxService hlisted hrx rfl
    obtain ⟨v, hhold, hv⟩ := ht.run_holds (.inr rfl)
    exact ⟨v, run_trans hlatch (run_trans hserve hhold), hv.ph.trans hrx.symm, hv.evt, hv.listed.idle, hv.listed.running,
      hkicks ▸ hv.kicks, hv.not_enabled (.inr rfl), fun htx => absurd (hrx.symm.trans htx) (by decide),
      fun _ => ⟨hv.seq, hv.hb⟩⟩

end Sys2Proof.Machine
end

section
/-!
PROOFS, family 44_transmit: what each phase of the transmit service does (44_transmit.md R120 to R123, and the receive wait of R128);
then the two laws of its packets, the sequence law (R124, R162) and the checkpoint law (R126, R137). Both see only the stage of the
service, SEQ, and the packets since the last reset and the last checkpoint; `TransmitStep` says once what a step does to them.
-/

namespace Sys2Proof.Machine

/-! ### The phases (R120 to R123, R128) -/

/-- The packet of SEQ is in the TX FIFO, and TX is strobed (R120). -/
def State.txArmed (s : State) : State :=
  ((s.record (.port (.writeFifo (buildTxPacket s.seq (payloadOf s.par s.seq))))).record
    (.port (.strobe s.par.cmdStx))).toPhase Phase.txWait

theorem exec_txArm (s : State) : exec .txArm s = .next s.txArmed := rfl

/-- The transmission is accounted for: flag, heartbeat and SEQ (R122). -/
def State.txCompleted (s : State) : State :=
  { s with ph := Phase.txDelay, evt := false, hb := !s.hb, seq := s.seq + 1 }

theorem exec_txComplete (s : State) : exec .txComplete s = .next s.txCompleted := rfl

/-- TX_DELAY: the busy-wait leaves the state, then the checkpoint (R123). -/
theorem exec_txDelay (s : State) : exec .txDelay s = .next ((kick s).toPhase Phase.txArm) := rfl

/-- The two sequence bytes of R106 as numbers. -/
theorem seqBytes_eq (q : SeqNum) : q.extractLsb' 8 8 = BitVec.ofNat 8 (q.toNat / 256)
    ∧ q.extractLsb' 0 8 = BitVec.ofNat 8 (q.toNat % 256) := by
  constructor <;> apply BitVec.eq_of_toNat_eq <;> simp [Nat.shiftRight_eq_div_pow]

/-- Settles O8: two records, the first of the framed packet with its sequence bytes as numbers. -/
theorem txArmResult : Obligations.TxArmResult := by
  intro s pl
  obtain ⟨hhigh, hlow⟩ := seqBytes_eq s.seq
  rw [exec_txArm, ← hhigh, ← hlow]
  simp [State.txArmed, State.record, State.toPhase, buildTxPacket, pl]

/-- Settles O10: both phases wait, and a wait whose event has come goes on. -/
theorem waitResult : Obligations.WaitResult := by
  rintro s i after (⟨rfl, rfl⟩ | ⟨rfl, rfl⟩) he
  · exact congrArg Host.Outcome.next (awaitEvent_of_evt he Phase.txComplete)
  · exact congrArg Host.Outcome.next (awaitEvent_of_evt he Phase.rxInspect)

/-- Settles O11: the machine's sum of sequence values is the sum of their numbers mod 2^16. -/
theorem txCompleteResult : Obligations.TxCompleteResult := by
  intro s
  have hnext : BitVec.ofNat 16 ((s.seq.toNat + 1) % 2 ^ 16) = s.seq + 1 := by
    bv_omega
  rw [hnext, exec_txComplete, State.txCompleted]

/-- Settles O12: the busy-wait is no operation on the state, and the checkpoint is one record. -/
theorem txDelayResult : Obligations.TxDelayResult :=
  exec_txDelay

/-! ### The stages of the transmit service (R124, R126) -/

/-- How far the transmit service has come. -/
inductive ServiceStage where
  /-- no service runs yet: CONFIG, calibration, and HALT, which only calibration enters -/
  | before
  /-- no packet has been written since the last checkpoint -/
  | ready
  /-- a packet has been written and SEQ is still its number -/
  | pending
  /-- SEQ has passed the packet's number, and the checkpoint is to come -/
  | passed

/-- The number of packets written since the last checkpoint. -/
def ServiceStage.written : ServiceStage → Nat
  | .before => 0
  | .ready => 0
  | .pending => 1
  | .passed => 1

/-- The stage a phase code shows; the receive phases write no packet. -/
def serviceStage (c : BitVec 5) : ServiceStage :=
  if c.toNat ≤ 0x07 ∨ c = Phase.halt then .before
  else if c = Phase.txWait ∨ c = Phase.txComplete then .pending
  else if c = Phase.txDelay then .passed
  else .ready

theorem serviceStage_before_iff (c : BitVec 5) : serviceStage c = .before ↔ c.toNat ≤ 0x07 ∨ c = Phase.halt := by
  rw [serviceStage]
  split_ifs with hbefore <;> simp [hbefore]

theorem serviceStage_pending_iff (c : BitVec 5) :
    serviceStage c = .pending ↔ (c == Phase.txWait || c == Phase.txComplete) = true := by
  rw [serviceStage]
  split_ifs with hbefore hpending
  · obtain hlow | rfl := hbefore
    · simp [← BitVec.toNat_inj]
      omega
    · simp
  · simpa using hpending
  · simpa using hpending
  · simpa using hpending

theorem serviceStage_written_eq : ∀ c : BitVec 5, (serviceStage c).written =
    if c = Phase.txWait ∨ c = Phase.txComplete ∨ c = Phase.txDelay then 1 else 0 := by
  decide

/-- A poll's next phase is one of calibration (R93). -/
theorem serviceStage_ownPhase (r : CalRun) : serviceStage (ownPhase r) = .before := by
  cases r <;> rfl

theorem serviceStage_snapPhase (r : CalRun) : serviceStage (snapPhase r) = .before := by
  cases r <;> rfl

/-- Calibration ends where either service begins (R101). -/
theorem serviceStage_armPhase (m : Mode) : serviceStage (armPhase m) = .ready := by
  cases m <;> rfl

/-! ### The laws in terms of the stage -/

/-- `k` packets have been written since the last reset, those numbered 1 to `k`, and SEQ fits. -/
structure State.HasSent (s : State) (k : Nat) : Prop where
  packets : packetsOf (sinceReset s.trace) = (List.range k).map (packetAt s.par)
  pending : serviceStage s.ph = .pending → 1 ≤ k ∧ s.seq = BitVec.ofNat 16 k
  idle : serviceStage s.ph ≠ .pending → s.seq = 0x0001#16 + BitVec.ofNat 16 k
  before : serviceStage s.ph = .before → k = 0

theorem sequenceLaw_iff (s : State) : s.SequenceLaw ↔ ∃ k, s.HasSent k := by
  unfold State.SequenceLaw State.packetPending
  refine exists_congr fun k => ?_
  rw [ite_prop_iff_and, ← serviceStage_pending_iff, ← serviceStage_before_iff]
  constructor
  · rintro ⟨hpackets, ⟨hpending, hidle⟩, hbefore⟩
    exact ⟨hpackets, hpending, hidle, hbefore⟩
  · rintro ⟨hpackets, hpending, hidle, hbefore⟩
    exact ⟨hpackets, ⟨hpending, hidle⟩, hbefore⟩

theorem checkpointLaw_iff (s : State) :
    s.CheckpointLaw ↔ (packetsOf (sinceKick s.trace)).length = (serviceStage s.ph).written := by
  rw [serviceStage_written_eq, State.CheckpointLaw]

/-! ### What records do to the packets of TRACE -/

/-- A record that is no packet, no checkpoint and no reset. -/
def Record.IsAside : Record → Prop
  | .port (.writeFifo _) => False
  | .port (.read _ _) => True
  | .port (.write _ _) => True
  | .port (.strobe _) => True
  | .port (.readFifo _ _) => True
  | .diag _ => True
  | .kick => False
  | .edge => True
  | .reset _ => False

/-- Such a record leaves the packets since the last reset. -/
theorem packetsOf_sinceReset_aside {r : Record} (hr : r.IsAside) (tr : List Record) :
    packetsOf (sinceReset (tr ++ [r])) = packetsOf (sinceReset tr) := by
  rw [sinceReset_append]
  rcases r with (_ | _ | _ | _ | _) | _ | _ | _ | _ <;> simp_all [Record.IsAside, addSinceReset, packetsOf]

/-- Such a record leaves the packets since the last checkpoint. -/
theorem packetsOf_sinceKick_aside {r : Record} (hr : r.IsAside) (tr : List Record) :
    packetsOf (sinceKick (tr ++ [r])) = packetsOf (sinceKick tr) := by
  rw [sinceKick_append]
  rcases r with (_ | _ | _ | _ | _) | _ | _ | _ | _ <;> simp_all [Record.IsAside, addSinceKick, packetsOf]

/-- A packet is the last since the last reset. -/
theorem packetsOf_sinceReset_packet (tr : List Record) (bs : List Byte) :
    packetsOf (sinceReset (tr ++ [.port (.writeFifo bs)])) = packetsOf (sinceReset tr) ++ [bs] := by
  simp [sinceReset_append, addSinceReset, packetsOf]

/-- A packet is the last since the last checkpoint. -/
theorem packetsOf_sinceKick_packet (tr : List Record) (bs : List Byte) :
    packetsOf (sinceKick (tr ++ [.port (.writeFifo bs)])) = packetsOf (sinceKick tr) ++ [bs] := by
  simp [sinceKick_append, addSinceKick, packetsOf]

/-- TX_ARM's packet is the last since the last reset. -/
theorem packetsOf_sinceReset_txArmed (s : State) : packetsOf (sinceReset s.txArmed.trace) =
    packetsOf (sinceReset s.trace) ++ [buildTxPacket s.seq (payloadOf s.par s.seq)] :=
  (packetsOf_sinceReset_aside (r := .port (.strobe s.par.cmdStx)) trivial _).trans (packetsOf_sinceReset_packet _ _)

/-- TX_ARM's packet is the last since the last checkpoint. -/
theorem packetsOf_sinceKick_txArmed (s : State) : packetsOf (sinceKick s.txArmed.trace) =
    packetsOf (sinceKick s.trace) ++ [buildTxPacket s.seq (payloadOf s.par s.seq)] :=
  (packetsOf_sinceKick_aside (r := .port (.strobe s.par.cmdStx)) trivial _).trans (packetsOf_sinceKick_packet _ _)

/-- A checkpoint leaves the packets since the last reset. -/
theorem packetsOf_sinceReset_kick (tr : List Record) :
    packetsOf (sinceReset (tr ++ [.kick])) = packetsOf (sinceReset tr) := by
  simp [sinceReset_append, addSinceReset, packetsOf]

/-! ### Work aside from the transmit service -/

/-- Begun in `s`, the work that has come to `t` has moved nothing the two laws see. -/
structure WorksAside (s t : State) : Prop where
  cfg : t.cfg = s.cfg
  seq : t.seq = s.seq
  stage : serviceStage t.ph = serviceStage s.ph
  sinceReset : packetsOf (Machine.sinceReset t.trace) = packetsOf (Machine.sinceReset s.trace)
  sinceKick : packetsOf (Machine.sinceKick t.trace) = packetsOf (Machine.sinceKick s.trace)

theorem WorksAside.refl (s : State) : WorksAside s s := ⟨rfl, rfl, rfl, rfl, rfl⟩

section
variable {s t : State} (h : WorksAside s t)
include h

theorem WorksAside.record {r : Record} (hr : r.IsAside := by trivial) : WorksAside s (t.record r) :=
  { h with
    sinceReset := (packetsOf_sinceReset_aside hr _).trans h.sinceReset
    sinceKick := (packetsOf_sinceKick_aside hr _).trans h.sinceKick }

theorem WorksAside.consume (k : Nat) : WorksAside s (t.consume k) :=
  { h with }

/-- PH may move to a phase of the same stage. -/
theorem WorksAside.toPhase {c d : BitVec 5} (hp : s.ph = c) (hd : serviceStage d = serviceStage c) :
    WorksAside s (t.toPhase d) :=
  { h with stage := hd.trans (congrArg serviceStage hp.symm) }

theorem WorksAside.portRead (a : Addr) : WorksAside s (portRead a t).2 :=
  (h.consume 1).record

theorem WorksAside.writeProfile (l : List (Addr × Byte)) : WorksAside s (writeProfile l t) := by
  induction l generalizing t with
  | nil => exact h
  | cons e l ih => exact ih h.record

theorem WorksAside.readTriple : WorksAside s (readTriple t).2 :=
  ((h.portRead _).portRead _).portRead _

theorem WorksAside.writeTriple (w : CalResult) : WorksAside s (writeTriple w t) :=
  h.record.record.record

theorem WorksAside.drainAndReport (n : Byte) : WorksAside s (drainAndReport n t) := by
  unfold Machine.drainAndReport
  split
  · exact h.record.record
  · exact (h.consume _).record.record

end

/-- A wait goes on within its stage or holds. -/
theorem WorksAside.awaitEvent {s : State} {c after : BitVec 5} (hp : s.ph = c)
    (hafter : serviceStage after = serviceStage c) : WorksAside s (awaitEvent after s) := by
  obtain ⟨-, h⟩ | ⟨-, h⟩ := awaitEvent_cases (c := after) (s := s) rfl <;> rw [h]
  · exact (WorksAside.refl s).toPhase hp hafter
  · exact .refl s

/-- Each of a poll's three ends is a phase without a service: calibration's, or HALT (R93). -/
theorem WorksAside.calPoll {s : State} {n : Nat} {r : CalRun} (hn : s.polls = some n) (hp : s.ph = ownPhase r) :
    WorksAside s (calPoll r s) := by
  have hpolled : WorksAside s (s.polled n) := { (WorksAside.refl s).portRead s.par.aMarcState with }
  have hbefore {d : BitVec 5} (hd : serviceStage d = .before) : serviceStage d = serviceStage (ownPhase r) :=
    hd.trans (serviceStage_ownPhase r).symm
  obtain ⟨-, h⟩ | ⟨-, -, h⟩ | ⟨-, -, h⟩ := calPoll_cases r hn <;> rw [h]
  · exact hpolled.toPhase hp (hbefore (serviceStage_snapPhase r))
  · have hreported : WorksAside s ((s.polled n).record (.diag (.calTimeout r (n + 1)))) := hpolled.record
    exact { hreported.toPhase hp (hbefore (d := Phase.halt) rfl) with }
  · exact hpolled.toPhase hp rfl

/-! ### What a step does to the transmit service -/

/-- The step from `s` to `t`, as the two laws see it. -/
inductive TransmitStep (s : State) : State → Prop where
  | aside {t : State} (h : WorksAside s t) : TransmitStep s t
  /-- TX_ARM (R120) -/
  | arm (hp : s.ph = Phase.txArm) : TransmitStep s s.txArmed
  /-- TX_COMPLETE (R122) -/
  | complete (hp : s.ph = Phase.txComplete) : TransmitStep s s.txCompleted
  /-- a checkpoint of R135, made with no packet pending, before a phase with none written -/
  | checkpoint {u : State} {c : BitVec 5} (h : WorksAside s u) (hfrom : serviceStage s.ph ≠ .pending)
      (hto : serviceStage c = .ready) : TransmitStep s ((kick u).toPhase c)
  /-- a reset (R160) -/
  | reset (cause : ResetCause) : TransmitStep s (applyReset cause s)

/-- Every end of a receive service is a checkpoint (R129 to R131). -/
theorem WorksAside.endService {s u : State} {c : BitVec 5} (h : WorksAside s u) (hp : s.ph = c)
    (hc : serviceStage c = .ready) : TransmitStep s (endService u) :=
  .checkpoint (u := clearEvt u) { h with } (by simp [hp, hc]) rfl

/-- The invariant has CAL_BASE written, so CAL_BEGIN_MID starts its run (R98). -/
theorem calBeginMid_worksAside {s t : State} (hs : s.Inv) (hp : s.ph = Phase.calBeginMid)
    (h : exec .calBeginMid s = .next t) : WorksAside s t := by
  obtain ⟨b, hb⟩ := Option.isSome_iff_exists.1 (readyFor_calBeginMid.1 (hs.readyFor hp)).1
  cases h
  rw [portWrite_eq, State.record_calBase, hb, readWorking_some]
  have hstarted := (WorksAside.refl s).record (r := .port (.write s.par.aVcoCap 0x00#8))
    |>.record (r := .port (.write s.par.aCalCtrl b)) |>.record (r := .port (.strobe s.par.cmdScal))
  exact { hstarted.toPhase hp (d := Phase.calPollMid) rfl with }

/-- The invariant has both triples written, so CAL_APPLY ends in its checkpoint (R101). -/
theorem calApply_transmitStep {s t : State} (hs : s.Inv) (hp : s.ph = Phase.calApply)
    (h : exec .calApply s = .next t) : TransmitStep s t := by
  obtain ⟨hhigh, hmid⟩ := readyFor_calApply.1 (hs.readyFor hp)
  obtain ⟨high, hhigh⟩ := Option.isSome_iff_exists.1 hhigh
  obtain ⟨mid, hmid⟩ := Option.isSome_iff_exists.1 hmid
  cases h
  rw [hhigh, hmid, readWorking_some, readWorking_some]
  exact .checkpoint ((WorksAside.refl s).writeTriple _) (by simp [hp, serviceStage]) (serviceStage_armPhase _)

/-- An inspection ends the service where nothing was received, and else goes on within it (R129). -/
theorem rxInspect_transmitStep {s t : State} (hp : s.ph = Phase.rxInspect) (h : exec .rxInspect s = .next t) :
    TransmitStep s t := by
  have hread : WorksAside s (portRead s.par.aNumRxBytes s).2 := (WorksAside.refl s).portRead _
  have hboth : WorksAside s s.inspected := hread.portRead _
  obtain ⟨-, he⟩ | ⟨-, -, he⟩ | ⟨-, -, he⟩ := exec_rxInspect_cases s <;> cases he.symm.trans h
  · exact hread.endService hp rfl
  · exact .aside (hboth.toPhase hp rfl)
  · exact .aside { hboth.toPhase hp (d := Phase.rxDrain) rfl with }

/-- The invariant has RXN written, so RX_DRAIN ends the service (R130). -/
theorem rxDrain_transmitStep {s t : State} (hs : s.Inv) (hp : s.ph = Phase.rxDrain) (h : exec .rxDrain s = .next t) :
    TransmitStep s t := by
  obtain ⟨n, hn, -⟩ := readyFor_rxDrain.1 (hs.readyFor hp)
  cases (exec_rxDrain hn).symm.trans h
  exact ((WorksAside.refl s).drainAndReport n).endService hp rfl

/-- In a state with the invariant, the sequencer's step is one of the transmit service's: phase by phase. -/
theorem sequencer_transmitStep {s t : State} {c : BitVec 5} (hs : s.Inv) (hp : s.ph = c)
    (h : exec (decodePhase c) s = .next t) : TransmitStep s t := by
  have haside := WorksAside.refl s
  rcases phase_codes c (legalPhase_le_halt (hp ▸ hs.phase)) with rfl | rfl | rfl | rfl | rfl | rfl | rfl | rfl | rfl | rfl
    | rfl | rfl | rfl | rfl | rfl | rfl | rfl | rfl
  · cases (h : exec .config s = .next t)
    exact .aside ((haside.writeProfile _).record.toPhase hp rfl)
  · cases (h : exec .calBeginHigh s = .next t)
    have hstarted := (haside.record (r := .port (.write s.par.aVcoCap 0x00#8))).portRead s.par.aCalCtrl
    exact .aside { (hstarted.record (r := .port (.write s.par.aCalCtrl _))).record (r := .port (.strobe s.par.cmdScal))
      |>.toPhase hp (d := Phase.calPollHigh) rfl with }
  · obtain ⟨n, hn, -⟩ := hs.pollsLeft (.inl hp)
    cases (h : exec .calPollHigh s = .next t)
    exact .aside (.calPoll (r := .high) hn hp)
  · cases (h : exec .calSnapHigh s = .next t)
    exact .aside { haside.readTriple.toPhase hp (d := Phase.calBeginMid) rfl with }
  · exact .aside (calBeginMid_worksAside hs hp h)
  · obtain ⟨n, hn, -⟩ := hs.pollsLeft (.inr hp)
    cases (h : exec .calPollMid s = .next t)
    exact .aside (.calPoll (r := .mid) hn hp)
  · cases (h : exec .calSnapMid s = .next t)
    exact .aside { haside.readTriple.toPhase hp (d := Phase.calApply) rfl with }
  · exact calApply_transmitStep hs hp h
  · cases (h : exec .txArm s = .next t)
    exact .arm hp
  · cases (h : exec .txWait s = .next t)
    exact .aside (.awaitEvent hp rfl)
  · cases (h : exec .txComplete s = .next t)
    exact .complete hp
  · cases (h : exec .txDelay s = .next t)
    exact .checkpoint haside (by simp [hp, serviceStage]) rfl
  · cases (h : exec .rxArm s = .next t)
    exact .aside (haside.record.toPhase hp rfl)
  · cases (h : exec .rxWait s = .next t)
    exact .aside (.awaitEvent hp rfl)
  · exact rxInspect_transmitStep hp h
  · exact rxDrain_transmitStep hs hp h
  · cases (h : exec .rxFlush s = .next t)
    exact haside.record.record.endService hp rfl
  · cases (h : exec .halt s = .next t)
    exact .aside haside

/-- In a state with the invariant every step is one of the transmit service's, by whose turn it was. -/
theorem step_transmitStep {s t : State} (hs : s.Inv) (hstep : step s = .next t) : TransmitStep s.endTurn t := by
  have haside := WorksAside.refl s.endTurn
  obtain ⟨-, rfl | ⟨-, -, hexec⟩ | ⟨-, rfl⟩ | ⟨-, -, rfl⟩ | ⟨-, rfl⟩ | ⟨-, rfl⟩ | ⟨_, _, -, rfl⟩⟩ := step_turns hstep
  · exact .aside haside
  · exact sequencer_transmitStep hs.endTurn rfl hexec
  · exact .aside { haside.record (r := .edge) with }
  · exact .aside { haside with }
  · exact .reset .powerOn
  · exact .reset .watchdog
  · exact .aside { haside with }

/-! ### The sequence law (R124, R162) -/

/-- In CONFIG with SEQ at its reset value and no packet written, none has been sent. -/
theorem hasSent_zero {s : State} (hp : s.ph = Phase.config) (hseq : s.seq = 0x0001#16)
    (hpackets : packetsOf (sinceReset s.trace) = []) : s.HasSent 0 where
  packets := hpackets
  pending h := by simp [hp, serviceStage] at h
  idle _ := hseq
  before _ := rfl

/-- Number `k + 1` is 1 more than `k`, in sequence values. -/
theorem ofNat_succ_eq (k : Nat) : BitVec.ofNat 16 (k + 1) = 0x0001#16 + BitVec.ofNat 16 k := by
  rw [BitVec.ofNat_add, BitVec.add_comm]

section
variable {s t : State} {k : Nat} (hs : s.HasSent k)
include hs

theorem State.HasSent.worksAside (h : WorksAside s t) : t.HasSent k := by
  obtain ⟨hcfg, hseq, hstage, hreset, -⟩ := h
  refine ⟨?_, ?_, ?_, ?_⟩
  · rw [hreset, State.par, hcfg, hs.packets]
  · rw [hstage, hseq]
    exact hs.pending
  · rw [hstage, hseq]
    exact hs.idle
  · rw [hstage]
    exact hs.before

/-- With none pending, the packet of SEQ is the next one. -/
theorem State.HasSent.packet_eq (hidle : serviceStage s.ph ≠ .pending) :
    buildTxPacket s.seq (payloadOf s.par s.seq) = packetAt s.par k := by
  rw [hs.idle hidle, packetAt]

/-- TX_ARM writes the next packet, and SEQ stays its number. -/
theorem State.HasSent.txArmed (hp : s.ph = Phase.txArm) : s.txArmed.HasSent (k + 1) := by
  have hidle : serviceStage s.ph ≠ .pending := by simp [hp, serviceStage]
  have hpending : serviceStage s.txArmed.ph = .pending := rfl
  have hseq : s.seq = BitVec.ofNat 16 (k + 1) := (hs.idle hidle).trans (ofNat_succ_eq k).symm
  refine ⟨?packets, fun _ => ⟨by omega, hseq⟩, absurd hpending, by simp [hpending]⟩
  case packets =>
    rw [packetsOf_sinceReset_txArmed, hs.packets, hs.packet_eq hidle, List.range_succ, List.map_append]
    rfl

/-- TX_COMPLETE passes the number of the pending packet. -/
theorem State.HasSent.txCompleted (hp : s.ph = Phase.txComplete) : s.txCompleted.HasSent k := by
  obtain ⟨-, hseq⟩ := hs.pending (hp ▸ rfl)
  have hpassed : serviceStage s.txCompleted.ph = .passed := rfl
  refine ⟨hs.packets, by simp [hpassed], fun _ => ?next, by simp [hpassed]⟩
  case next => exact (congrArg (· + 0x0001#16) hseq).trans (BitVec.add_comm _ _)

/-- A checkpoint with none pending writes no packet and leaves SEQ. -/
theorem State.HasSent.checkpoint {c : BitVec 5} (hidle : serviceStage s.ph ≠ .pending) (hc : serviceStage c = .ready) :
    ((kick s).toPhase c).HasSent k where
  packets := (packetsOf_sinceReset_kick s.trace).trans hs.packets
  pending h := nomatch hc.symm.trans h
  idle _ := hs.idle hidle
  before h := nomatch hc.symm.trans h

end

/-- A step of the transmit service keeps the sequence law: only TX_ARM's writes a packet more. -/
theorem TransmitStep.keeps_sequenceLaw {s t : State} (h : TransmitStep s t) (hs : s.SequenceLaw) : t.SequenceLaw := by
  obtain ⟨k, hk⟩ := (sequenceLaw_iff s).1 hs
  rw [sequenceLaw_iff]
  cases h with
  | aside h => exact ⟨k, hk.worksAside h⟩
  | arm hp => exact ⟨k + 1, hk.txArmed hp⟩
  | complete hp => exact ⟨k, hk.txCompleted hp⟩
  | checkpoint h hidle hc => exact ⟨k, (hk.worksAside h).checkpoint (h.stage ▸ hidle) hc⟩
  | reset cause => exact ⟨0, hasSent_zero rfl rfl (congrArg packetsOf (sinceReset_reset s.trace cause))⟩

/-- Settles O32: nothing is sent right after reset, and every step is one of the transmit service's. -/
theorem stepKeepsSequenceLaw : Obligations.StepKeepsSequenceLaw := by
  refine ⟨fun c => (sequenceLaw_iff _).2 ⟨0, hasSent_zero rfl rfl rfl⟩, fun s t hinv hs hstep => ?_⟩
  have hturn : s.endTurn.SequenceLaw := hs
  exact (step_transmitStep hinv hstep).keeps_sequenceLaw hturn

/-! ### The checkpoint law (R126, R137) -/

/-- A step of the transmit service keeps the checkpoint law: TX_ARM's writes the one packet, and a checkpoint starts anew. -/
theorem TransmitStep.keeps_checkpointLaw {s t : State} (h : TransmitStep s t) (hs : s.CheckpointLaw) :
    t.CheckpointLaw := by
  rw [checkpointLaw_iff] at hs ⊢
  cases h with
  | aside h => rwa [h.sinceKick, h.stage]
  | arm hp =>
    have hnone : (packetsOf (sinceKick s.trace)).length = 0 := by rwa [hp] at hs
    rw [packetsOf_sinceKick_txArmed, List.length_append, hnone]
    rfl
  | complete hp => rwa [hp] at hs
  | @checkpoint u c h hidle hc =>
    have hstarts : packetsOf (sinceKick ((kick u).toPhase c).trace) = [] := congrArg packetsOf (sinceKick_kick u.trace)
    have hready : serviceStage ((kick u).toPhase c).ph = .ready := hc
    rw [hstarts, hready]
    rfl
  | reset cause => exact congrArg (fun rs => (packetsOf rs).length) (sinceKick_reset s.trace cause)

/-- Settles O33: no packet is written right after reset, and every step is one of the transmit service's. -/
theorem stepKeepsCheckpointLaw : Obligations.StepKeepsCheckpointLaw := by
  refine ⟨fun c => (checkpointLaw_iff _).2 rfl, fun s t hinv hs hstep => ?_⟩
  have hturn : s.endTurn.CheckpointLaw := hs
  exact (step_transmitStep hinv hstep).keeps_checkpointLaw hturn

end Sys2Proof.Machine
end

section
/-!
PROOFS, family 45_receive: what each phase of the receive service does (45_receive.md R127, R129 to R131), and the recovery from a
FIFO error (R132), which is three of these phases in a row.
-/

namespace Sys2Proof.Machine

/-! ### The end of a service, and the phases that only record (R127, R131) -/

/-- The end of every receive service: latch, checkpoint, re-arm. -/
theorem endService_eq (s : State) :
    endService s = { s with ph := 0x0C#5, evt := false, trace := s.trace ++ [.kick] } := rfl

/-- Settles O13: one strobe and the next phase. -/
theorem rxArmResult : Obligations.RxArmResult := fun _ => rfl

/-- Settles O16: two records, then the end of the service. -/
theorem rxFlushResult : Obligations.RxFlushResult := by
  intro s
  have hexec : exec .rxFlush s =
      .next (endService ((s.record (.port (.strobe s.par.cmdSfrx))).record (.diag (.fifoError .statusOverflow)))) := rfl
  rw [hexec, endService_eq]
  simp

/-! ### RX_INSPECT (R129) -/

/-- The two reads of an inspection that finds the count above 0. -/
theorem inspected_eq (s : State) :
    s.inspected = { s.consume 2 with
      trace := s.trace ++ [.port (.read s.par.aNumRxBytes (s.answerAt 0))] ++
        [.port (.read s.par.aMarcState (s.answerAt 1))] } := by
  simp only [State.inspected, portRead_snd, answerAt_record, answerAt_consume, record_consume, consume_consume]
  rfl

/-- Settles O14: of the inspection's three exclusive ends, each clause's hypotheses leave one. -/
theorem rxInspectResult : Obligations.RxInspectResult := by
  intro s n m counted both
  have hlow := extractLsb'_low_eq_iff m s.par.fifoErrCode
  obtain ⟨hn, hexec⟩ | ⟨hn, he, hexec⟩ | ⟨hn, he, hexec⟩ := exec_rxInspect_cases s
  case inl => exact ⟨fun _ => hexec, fun h => absurd hn h, fun h => absurd hn h⟩
  case inr.inl =>
    rw [inspected_eq] at hexec
    exact ⟨fun h => absurd h hn, fun _ _ => hexec, fun _ h => absurd (hlow.1 he) h⟩
  case inr.inr =>
    rw [inspected_eq] at hexec
    exact ⟨fun h => absurd h hn, fun _ h => absurd (hlow.2 h) he, fun _ _ => hexec⟩

/-! ### RX_DRAIN (R130) -/

/-- A count above the buffer's capacity is flushed and reported; no byte is drained. -/
theorem drainAndReport_of_lt {n : Byte} {s : State} (h : s.par.rxBufCap < n.toNat) :
    drainAndReport n s = { s with
      trace := s.trace ++ [.port (.strobe s.par.cmdSfrx), .diag (.framingError none n.toNat)] } := by
  rw [drainAndReport, if_pos h]
  exact record_foldl [_, _] s

/-- A count within the capacity: that many bytes are drained, and what the parse of them answers is reported. -/
theorem drainAndReport_of_le {n : Byte} {s : State} (h : n.toNat ≤ s.par.rxBufCap) :
    drainAndReport n s = { s.consume n.toNat with
      trace := s.trace ++ [.port (.readFifo n ((List.range n.toNat).map s.answerAt)),
        .diag (reportOf (parseRxPacket s.par.rxBufCap ((List.range n.toNat).map s.answerAt)))] } := by
  rw [drainAndReport, if_neg (Nat.not_lt.2 h), portReadFifo_eq]
  exact record_foldl [_, _] (s.consume n.toNat)

/-- Settles O15: with RXN written the phase drains or flushes, as the count lies, and ends the service. -/
theorem rxDrainResult : Obligations.RxDrainResult := by
  intro s n hn
  rw [exec_rxDrain hn, endService_eq]
  refine ⟨fun habove => ?flushed, fun hwithin => ⟨reportOf (parseRxPacket s.par.rxBufCap _), rfl, ?drained⟩⟩
  case flushed =>
    rw [drainAndReport_of_lt habove, List.append_assoc]
    rfl
  case drained =>
    rw [drainAndReport_of_le hwithin, List.append_assoc]
    rfl

/-! ### Recovery from a FIFO error (R132) -/

section
variable {s : State} {as : List Byte} {ts : List Turn}

/-- RX_FLUSH's turn. -/
theorem step_rxFlush (h : s.Listed as (.sequencer :: ts)) (hp : s.ph = Phase.rxFlush) :
    step s = .next { s.elapsed 1 0 as ts with
      ph := Phase.rxArm
      evt := false
      trace := s.trace ++ [.port (.strobe s.par.cmdSfrx), .diag (.fifoError .statusOverflow), .kick] } :=
  (h.step_eq hp).trans (rxFlushResult _)

/-- RX_ARM's turn. -/
theorem step_rxArm (h : s.Listed as (.sequencer :: ts)) (hp : s.ph = Phase.rxArm) :
    step s = .next { s.elapsed 1 0 as ts with
      ph := Phase.rxWait
      trace := s.trace ++ [.port (.strobe s.par.cmdSrx)] } :=
  (h.step_eq hp).trans (rxArmResult _)

/-- RX_INSPECT's turn where the count is above 0 and the status is the FIFO error's. -/
theorem step_rxInspect_error (h : s.Listed as (.sequencer :: ts)) (hp : s.ph = Phase.rxInspect) (hn : s.answerAt 0 ≠ 0)
    (he : (s.answerAt 1).toNat % 32 = s.par.fifoErrCode.toNat) :
    step s = .next { s.elapsed 1 2 (as.drop 2) ts with
      ph := Phase.rxFlush
      trace := s.trace ++ [.port (.read s.par.aNumRxBytes (s.answerAt 0))] ++
        [.port (.read s.par.aMarcState (s.answerAt 1))] } := by
  obtain ⟨hm, hirq, rfl, hscript⟩ := h
  have hturn := State.Listed.step_eq ⟨hm, hirq, rfl, hscript⟩ hp
  exact hturn.trans ((rxInspectResult _).2.1 hn he)

end

/-- Settles O52: the turns of RX_INSPECT, RX_FLUSH and RX_ARM, one after another. -/
theorem fifoErrorIsRecovered : Obligations.FifoErrorIsRecovered := by
  intro s later hm hirq hp hn he hscript
  have hinspect := run_one (step_rxInspect_error ⟨hm, hirq, rfl, hscript⟩ hp hn he)
  have hflush := run_trans hinspect (run_one (step_rxFlush ⟨hm, hirq, rfl, rfl⟩ rfl))
  have harm := run_trans hflush (run_one (step_rxArm ⟨hm, hirq, rfl, rfl⟩ rfl))
  simpa [State.elapsed] using harm

end Sys2Proof.Machine
end

section
/-!
PROOFS, family 46_watchdog_loop: the checkpoints. A kick is made at the points of R135 and nowhere else (R136, R137); and in
MODE = RX the records between two checkpoints are those of exactly one receive service (45_receive.md R133, R137).
-/

namespace Sys2Proof.Machine

/-! ### Work without a kick -/

/-- Begun in `s`, the work that has come to `t` has made no kick. -/
def NoKick (s t : State) : Prop :=
  t.trace.count .kick = s.trace.count .kick

theorem NoKick.refl (s : State) : NoKick s s :=
  rfl

section
variable {s t u : State} (h : NoKick s t)
include h

theorem NoKick.record {r : Record} (hr : r ≠ .kick := by simp) : NoKick s (t.record r) := by
  have hnone : [r].count .kick = 0 := by simp [hr]
  rw [NoKick, State.record_trace, List.count_append, hnone]
  exact h

/-- What has been drawn is no record. -/
theorem NoKick.consume (k : Nat) : NoKick s (t.consume k) :=
  h

/-- PH is no record. -/
theorem NoKick.toPhase (c : BitVec 5) : NoKick s (t.toPhase c) :=
  h

/-- MFAULT is no record. -/
theorem NoKick.modelFault (r : ModelFault) : NoKick s (raiseModelFault r t) :=
  h

theorem NoKick.portRead (a : Addr) : NoKick s (portRead a t).2 :=
  (h.consume 1).record

theorem NoKick.writeProfile (l : List (Addr × Byte)) : NoKick s (writeProfile l t) := by
  induction l generalizing t with
  | nil => exact h
  | cons e l ih => exact ih h.record

theorem NoKick.readTriple : NoKick s (readTriple t).2 :=
  ((h.portRead _).portRead _).portRead _

theorem NoKick.writeTriple (w : CalResult) : NoKick s (writeTriple w t) :=
  h.record.record.record

theorem NoKick.drainAndReport (n : Byte) : NoKick s (drainAndReport n t) := by
  obtain ⟨k, new, hwork, hnew⟩ := drainAndReport_eq n t
  rw [hwork, NoKick, List.count_append, hnew]
  exact h

/-- A working register's read goes on, or faults without a record. -/
theorem NoKick.readWorking {α : Type} (name : WorkingReg) (v : Option α) {go : α → State} (hgo : ∀ x, NoKick s (go x)) :
    NoKick s (readWorking name v t go) := by
  cases v with
  | some x => exact hgo x
  | none => exact h.modelFault _

theorem NoKick.ite (hu : NoKick s u) (c : Prop) [Decidable c] : NoKick s (if c then t else u) := by
  split
  · exact h
  · exact hu

end

theorem NoKick.awaitEvent (s : State) (c : BitVec 5) : NoKick s (awaitEvent c s) :=
  ((NoKick.refl s).toPhase c).ite (.refl s) _

/-- A poll reads, and may report that it timed out. -/
theorem NoKick.calPoll (s : State) (r : CalRun) : NoKick s (calPoll r s) := by
  have hread := (NoKick.refl s).portRead s.par.aMarcState
  refine hread.readWorking _ _ fun n => ?_
  have hcounted : NoKick s (s.polled n) := hread
  have htimedOut : NoKick s (raiseCalTimeout r (n + 1) (s.polled n)) :=
    hcounted.record (r := .diag (.calTimeout r (n + 1)))
  exact (hcounted.toPhase _).ite (htimedOut.ite (hcounted.toPhase _) _) _

/-! ### A checkpoint (R135, R137) -/

/-- From `s` to `t` exactly one kick has been made, and it is the last record. -/
def KicksLast (s t : State) : Prop :=
  t.trace.count .kick = s.trace.count .kick + 1 ∧ t.trace.getLast? = some .kick

theorem NoKick.kick {s t : State} (h : NoKick s t) (c : BitVec 5) : KicksLast s ((kick t).toPhase c) := by
  have hcount : (t.trace ++ [Record.kick]).count .kick = t.trace.count .kick + 1 := by simp
  exact ⟨hcount.trans (congrArg (· + 1) h), List.getLast?_concat⟩

/-- Every end of a receive service is a checkpoint. -/
theorem NoKick.endService {s t : State} (h : NoKick s t) : KicksLast s (endService t) :=
  NoKick.kick (t := clearEvt t) h Phase.rxArm

/-- The points of R135: instruction `i` comes to its `kick()` in state `s`. -/
def AtCheckpoint (s : State) (i : Instr) : Prop :=
  i = .calApply ∧ s.calH ≠ none ∧ s.calM ≠ none ∨ i = .txDelay ∨ i = .rxInspect ∧ s.answerAt 0 = 0
    ∨ i = .rxDrain ∧ s.rxn ≠ none ∨ i = .rxFlush

/-- Instruction `i`, run from `s` to `t`, kicks where it should and only there. -/
def KicksAtCheckpoint (s : State) (i : Instr) (t : State) : Prop :=
  (AtCheckpoint s i ∧ KicksLast s t) ∨ (¬ AtCheckpoint s i ∧ NoKick s t)

/-- Away from R135's points, what makes no kick is as it should be. -/
theorem KicksAtCheckpoint.never {s t : State} {i : Instr} (ht : NoKick s t)
    (hi : ¬ AtCheckpoint s i := by simp [AtCheckpoint]) : KicksAtCheckpoint s i t :=
  .inr ⟨hi, ht⟩

/-- CAL_APPLY comes to its checkpoint where both triples are written (R101, R35). -/
theorem calApply_kicks {s t : State} (h : exec .calApply s = .next t) : KicksAtCheckpoint s .calApply t := by
  cases h
  cases hh : s.calH with
  | none => exact .never ((NoKick.refl s).modelFault _) (by simp [AtCheckpoint, hh])
  | some hi =>
    cases hm : s.calM with
    | none => exact .never ((NoKick.refl s).modelFault _) (by simp [AtCheckpoint, hm])
    | some mid => exact .inl ⟨by simp [AtCheckpoint, hh, hm], ((NoKick.refl s).writeTriple _).kick _⟩

/-- RX_INSPECT ends the service where the count is 0 (R129). -/
theorem rxInspect_kicks {s t : State} (h : exec .rxInspect s = .next t) : KicksAtCheckpoint s .rxInspect t := by
  have hread := (NoKick.refl s).portRead s.par.aNumRxBytes
  have hboth : NoKick s s.inspected := hread.portRead _
  obtain ⟨hn, he⟩ | ⟨hn, -, he⟩ | ⟨hn, -, he⟩ := exec_rxInspect_cases s <;> cases he.symm.trans h
  · exact .inl ⟨by simp [AtCheckpoint, hn], hread.endService⟩
  · exact .never (hboth.toPhase _) (by simpa [AtCheckpoint] using hn)
  · exact .never hboth (by simpa [AtCheckpoint] using hn)

/-- RX_DRAIN ends the service where RXN is written (R130, R35). -/
theorem rxDrain_kicks {s t : State} (h : exec .rxDrain s = .next t) : KicksAtCheckpoint s .rxDrain t := by
  cases h
  cases hn : s.rxn with
  | none => exact .never ((NoKick.refl s).modelFault _) (by simp [AtCheckpoint, hn])
  | some n => exact .inl ⟨by simp [AtCheckpoint, hn], ((NoKick.refl s).drainAndReport n).endService⟩

/-- Every instruction kicks at the points of R135 and nowhere else; all but the three above do so whatever the state. -/
theorem exec_kicks {i : Instr} {s t : State} (h : exec i s = .next t) : KicksAtCheckpoint s i t := by
  have hstart := NoKick.refl s
  cases i with
  | calApply => exact calApply_kicks h
  | rxInspect => exact rxInspect_kicks h
  | rxDrain => exact rxDrain_kicks h
  | txDelay => cases h; exact .inl ⟨by simp [AtCheckpoint], hstart.kick _⟩
  | rxFlush => cases h; exact .inl ⟨by simp [AtCheckpoint], hstart.record.record.endService⟩
  | config => cases h; exact .never (hstart.writeProfile _).record
  | calBeginHigh =>
    cases h
    have hread := (hstart.record (r := .port (.write s.par.aVcoCap 0x00#8))).portRead s.par.aCalCtrl
    exact .never ((hread.record (r := .port (.write _ _))).record (r := .port (.strobe _)))
  | calPollHigh | calPollMid => cases h; exact .never (.calPoll s _)
  | calSnapHigh | calSnapMid => cases h; exact .never hstart.readTriple
  | calBeginMid =>
    cases h
    have hzeroed := hstart.record (r := .port (.write s.par.aVcoCap 0x00#8))
    exact .never (hzeroed.readWorking _ _ fun b =>
      (hzeroed.record (r := .port (.write s.par.aCalCtrl b))).record (r := .port (.strobe _)))
  | txArm => cases h; exact .never hstart.record.record
  | txWait | rxWait => cases h; exact .never (.awaitEvent s _)
  | rxArm => cases h; exact .never hstart.record
  | edge => cases h; exact .never (hstart.record (r := .edge))
  | resetPor | resetWdt => cases h; exact .never (hstart.record (r := .reset _))
  | txComplete | halt | reserved12 | reserved14 | reserved18 | isr => cases h; exact .never hstart
  | portRead | portWrite | portStrobe | portRfifo | portWfifo | portFdata | portReserved =>
    cases h; exact .never hstart

/-- Settles O34: instruction by instruction, the kick is made exactly where R135 has it. -/
theorem kickOnlyAtCheckpoints : Obligations.KickOnlyAtCheckpoints := by
  intro s t i h checkpoint
  obtain ⟨hat, hkick⟩ | ⟨hnot, hnone⟩ := exec_kicks h
  · exact ⟨fun _ => hkick, fun hno => absurd hat hno⟩
  · exact ⟨fun hat => absurd hat hnot, fun _ => hnone⟩

/-! ### What the records of a step do to those of the service -/

/-- A port record is the service's next. -/
theorem withoutEdges_sinceKick_port (tr : List Record) (p : PortRecord) :
    withoutEdges (sinceKick (tr ++ [.port p])) = withoutEdges (sinceKick tr) ++ [.port p] := by
  rw [sinceKick_append_plain tr [.port p] (by simp), withoutEdges_append]
  rfl

/-- An edge is none of the service's. -/
theorem withoutEdges_sinceKick_edge (tr : List Record) :
    withoutEdges (sinceKick (tr ++ [.edge])) = withoutEdges (sinceKick tr) := by
  simp

/-! ### The receive law, phase by phase -/

/-- The phases of the receive service (R22). -/
abbrev IsReceivePhase (c : BitVec 5) : Prop :=
  c = Phase.rxArm ∨ c = Phase.rxWait ∨ c = Phase.rxInspect ∨ c = Phase.rxDrain ∨ c = Phase.rxFlush

/-- A phase of calibration, a phase with a packet written and HALT are none of them. -/
theorem not_isReceivePhase {c : BitVec 5} (hc : serviceStage c ≠ .ready) : ¬ IsReceivePhase c := by
  rintro (rfl | rfl | rfl | rfl | rfl) <;> exact hc rfl

section
variable {s : State}

/-- Outside the receive service the law asks nothing. -/
theorem receiveLaw_elsewhere (h : ¬ IsReceivePhase s.ph) : s.ReceiveLaw where
  beforeArm hp := absurd (.inl hp) h
  armed hp := absurd (hp.elim (fun hp => .inr (.inl hp)) fun hp => .inr (.inr (.inl hp))) h
  toDrain hp := absurd (.inr (.inr (.inr (.inl hp)))) h
  toFlush hp := absurd (.inr (.inr (.inr (.inr hp)))) h

/-- So PH may move out of the receive service, or move outside it. -/
theorem receiveLaw_toPhase {c : BitVec 5} (hc : ¬ IsReceivePhase c := by decide) : (s.toPhase c).ReceiveLaw :=
  receiveLaw_elsewhere hc

/-- In CONFIG, where every reset leads (R160), the law asks nothing. -/
theorem receiveLaw_config (hp : s.ph = Phase.config) : s.ReceiveLaw :=
  receiveLaw_elsewhere (hp ▸ by decide)

theorem receiveLaw_rxArm (hp : s.ph = Phase.rxArm) (h : withoutEdges (sinceKick s.trace) = []) : s.ReceiveLaw := by
  constructor <;> simp [hp, h]

theorem receiveLaw_armed (hp : s.ph = Phase.rxWait ∨ s.ph = Phase.rxInspect)
    (h : withoutEdges (sinceKick s.trace) = [.port (.strobe s.par.cmdSrx)]) : s.ReceiveLaw := by
  obtain hp | hp := hp <;> constructor <;> simp [hp, h]

theorem receiveLaw_rxDrain {n m : Byte} (hp : s.ph = Phase.rxDrain) (hrxn : s.rxn = some n) (hn : n ≠ 0x00#8)
    (hm : m.toNat % 32 ≠ s.par.fifoErrCode.toNat)
    (h : withoutEdges (sinceKick s.trace) = [.port (.strobe s.par.cmdSrx)] ++ inspection s.par n m) : s.ReceiveLaw where
  beforeArm := by simp [hp]
  armed := by simp [hp]
  toDrain _ := ⟨n, m, hrxn, hn, hm, h⟩
  toFlush := by simp [hp]

theorem receiveLaw_rxFlush {n m : Byte} (hp : s.ph = Phase.rxFlush) (hn : n ≠ 0x00#8)
    (hm : m.toNat % 32 = s.par.fifoErrCode.toNat)
    (h : withoutEdges (sinceKick s.trace) = [.port (.strobe s.par.cmdSrx)] ++ inspection s.par n m) : s.ReceiveLaw where
  beforeArm := by simp [hp]
  armed := by simp [hp]
  toDrain := by simp [hp]
  toFlush _ := ⟨n, m, hn, hm, h⟩

/-- A checkpoint before RX_ARM starts the next service anew. -/
theorem receiveLaw_kick : ((kick s).toPhase Phase.rxArm).ReceiveLaw :=
  receiveLaw_rxArm rfl (congrArg withoutEdges (sinceKick_kick s.trace))

/-- Every end of a receive service starts the next anew. -/
theorem receiveLaw_endService : (endService s).ReceiveLaw :=
  receiveLaw_kick (s := clearEvt s)

/-- A wait with the service armed goes on to an inspection or holds (R128). -/
theorem State.ReceiveLaw.awaitEvent (hs : s.ReceiveLaw) (hp : s.ph = Phase.rxWait) :
    (awaitEvent Phase.rxInspect s).ReceiveLaw := by
  obtain ⟨-, h⟩ | ⟨-, h⟩ := awaitEvent_cases (c := Phase.rxInspect) (s := s) rfl <;> rw [h]
  · exact receiveLaw_armed (.inr rfl) (hs.armed (.inl hp))
  · exact hs

/-- RX_ARM's strobe is the first record of the service (R127). -/
theorem State.ReceiveLaw.rxArm {t : State} (hs : s.ReceiveLaw) (hp : s.ph = Phase.rxArm) (h : exec .rxArm s = .next t) :
    t.ReceiveLaw := by
  cases (rxArmResult s).symm.trans h
  refine receiveLaw_armed (.inl rfl) ?_
  rw [withoutEdges_sinceKick_port, hs.beforeArm hp]
  rfl

/-- The reads of an inspection follow the strobe (R129). -/
theorem State.ReceiveLaw.inspected (hs : s.ReceiveLaw) (hp : s.ph = Phase.rxInspect) :
    withoutEdges (sinceKick s.inspected.trace) =
      [.port (.strobe s.par.cmdSrx)] ++ inspection s.par (s.answerAt 0) (s.answerAt 1) := by
  rw [inspected_eq, withoutEdges_sinceKick_port, withoutEdges_sinceKick_port, hs.armed (.inr hp)]
  rfl

/-- Each of an inspection's ends leaves what the next phase is promised (R129). -/
theorem State.ReceiveLaw.rxInspect {t : State} (hs : s.ReceiveLaw) (hp : s.ph = Phase.rxInspect)
    (h : exec .rxInspect s = .next t) : t.ReceiveLaw := by
  have hlow := extractLsb'_low_eq_iff (s.answerAt 1) s.par.fifoErrCode
  obtain ⟨-, he⟩ | ⟨hn, hm, he⟩ | ⟨hn, hm, he⟩ := exec_rxInspect_cases s <;> cases he.symm.trans h
  · exact receiveLaw_endService
  · exact receiveLaw_rxFlush rfl hn (hlow.1 hm) (hs.inspected hp)
  · exact receiveLaw_rxDrain rfl rfl hn (fun hcode => hm (hlow.2 hcode)) (hs.inspected hp)

end

/-- Work that stays in calibration, or in a transmit service with its packet written, is none of the receive service's. -/
theorem receiveLaw_of_worksAside {s t : State} {c : BitVec 5} (h : WorksAside s t) (hp : s.ph = c)
    (hc : serviceStage c ≠ .ready) : t.ReceiveLaw :=
  receiveLaw_elsewhere (not_isReceivePhase (h.stage ▸ hp ▸ hc))

/-- A poll goes on in calibration or to HALT (R93). -/
theorem calPoll_receiveLaw {s : State} {r : CalRun} (hs : s.Inv) (hp : s.ph = ownPhase r) : (calPoll r s).ReceiveLaw := by
  obtain ⟨n, hn, -⟩ := hs.pollsLeft (hp ▸ ownPhase_poll r)
  exact receiveLaw_of_worksAside (.calPoll hn hp) hp (by simp [serviceStage_ownPhase])

/-- CAL_APPLY ends in the checkpoint before the first service (R101). -/
theorem calApply_receiveLaw {s t : State} (hs : s.Inv) (hp : s.ph = Phase.calApply) (h : exec .calApply s = .next t) :
    t.ReceiveLaw := by
  obtain ⟨hhigh, hmid⟩ := readyFor_calApply.1 (hs.readyFor hp)
  obtain ⟨high, hhigh⟩ := Option.isSome_iff_exists.1 hhigh
  obtain ⟨mid, hmid⟩ := Option.isSome_iff_exists.1 hmid
  cases h
  rw [hhigh, hmid, readWorking_some, readWorking_some]
  cases s.par.mode with
  | tx => exact receiveLaw_toPhase
  | rx => exact receiveLaw_kick

/-- In a state with the invariant, the sequencer's step keeps the receive law: phase by phase. -/
theorem sequencer_receiveLaw {s t : State} {c : BitVec 5} (hs : s.Inv) (hlaw : s.ReceiveLaw) (hp : s.ph = c)
    (h : exec (decodePhase c) s = .next t) : t.ReceiveLaw := by
  rcases phase_codes c (legalPhase_le_halt (hp ▸ hs.phase)) with rfl | rfl | rfl | rfl | rfl | rfl | rfl | rfl | rfl | rfl
    | rfl | rfl | rfl | rfl | rfl | rfl | rfl | rfl
  · cases (h : exec .config s = .next t)
    exact receiveLaw_toPhase
  · cases (h : exec .calBeginHigh s = .next t)
    exact receiveLaw_toPhase
  · cases (h : exec .calPollHigh s = .next t)
    exact calPoll_receiveLaw hs hp
  · cases (h : exec .calSnapHigh s = .next t)
    exact receiveLaw_toPhase
  · exact receiveLaw_of_worksAside (calBeginMid_worksAside hs hp h) hp nofun
  · cases (h : exec .calPollMid s = .next t)
    exact calPoll_receiveLaw hs hp
  · cases (h : exec .calSnapMid s = .next t)
    exact receiveLaw_toPhase
  · exact calApply_receiveLaw hs hp h
  · cases (h : exec .txArm s = .next t)
    exact receiveLaw_toPhase
  · cases (h : exec .txWait s = .next t)
    exact receiveLaw_of_worksAside (.awaitEvent hp rfl) hp nofun
  · cases (h : exec .txComplete s = .next t)
    exact receiveLaw_toPhase
  · cases (h : exec .txDelay s = .next t)
    exact receiveLaw_toPhase
  · exact hlaw.rxArm hp h
  · cases (h : exec .rxWait s = .next t)
    exact hlaw.awaitEvent hp
  · exact hlaw.rxInspect hp h
  · obtain ⟨n, hn, -⟩ := readyFor_rxDrain.1 (hs.readyFor hp)
    cases (exec_rxDrain hn).symm.trans h
    exact receiveLaw_endService
  · cases (h : exec .rxFlush s = .next t)
    exact receiveLaw_endService
  · cases (h : exec .halt s = .next t)
    exact hlaw

/-- An edge leaves the law: it speaks of the records without edges. -/
theorem State.ReceiveLaw.signalEdge {s : State} (hs : s.ReceiveLaw) : (signalEdge s).ReceiveLaw := by
  have hrecords := withoutEdges_sinceKick_edge s.trace
  exact ⟨fun hp => hrecords.trans (hs.beforeArm hp), fun hp => hrecords.trans (hs.armed hp),
    fun hp => hrecords ▸ hs.toDrain hp, fun hp => hrecords ▸ hs.toFlush hp⟩

/-- Every step keeps the receive law, by whose turn it was. -/
theorem step_receiveLaw {s t : State} (hs : s.Inv) (hlaw : s.ReceiveLaw) (hstep : step s = .next t) : t.ReceiveLaw := by
  have hturn : s.endTurn.ReceiveLaw := { hlaw with }
  obtain ⟨-, rfl | ⟨-, -, hexec⟩ | ⟨-, rfl⟩ | ⟨-, -, rfl⟩ | ⟨-, rfl⟩ | ⟨-, rfl⟩ | ⟨_, _, -, rfl⟩⟩ := step_turns hstep
  · exact hturn
  · exact sequencer_receiveLaw hs.endTurn hturn rfl hexec
  · exact hturn.signalEdge
  · exact { hturn with }
  · exact receiveLaw_config rfl
  · exact receiveLaw_config rfl
  · exact { hturn with }

/-! ### The records of one service (R133, R137) -/

/-- The step from `s` to `t` ends exactly one receive service. -/
def EndsOneService (s t : State) : Prop :=
  ∃ new : List Record, t.trace = s.trace ++ new ∧ OneService s.par (withoutEdges (sinceKick s.trace ++ new))

section
variable {s t : State} (hlaw : s.ReceiveLaw)
include hlaw

/-- RX_INSPECT with a count of 0 ends a service of which only the strobe is recorded. -/
theorem rxInspect_endsOneService (hp : s.ph = Phase.rxInspect) (hn : s.answerAt 0 = 0)
    (h : exec .rxInspect s = .next t) : EndsOneService s t := by
  cases ((rxInspectResult s).1 hn).symm.trans h
  refine ⟨[.port (.read s.par.aNumRxBytes (s.answerAt 0)), .kick], List.append_assoc .., ?_⟩
  rw [withoutEdges_append, hlaw.armed (.inr hp), hn]
  exact .empty

/-- RX_DRAIN ends a service that RX_INSPECT found ready, as the count lies (R130). -/
theorem rxDrain_endsOneService (hp : s.ph = Phase.rxDrain) (h : exec .rxDrain s = .next t) : EndsOneService s t := by
  obtain ⟨n, m, hrxn, hn, hm, hrecords⟩ := hlaw.toDrain hp
  obtain ⟨hflushed, hdrained⟩ := rxDrainResult s n hrxn
  by_cases habove : s.par.rxBufCap < n.toNat
  · cases (hflushed habove).symm.trans h
    refine ⟨_, rfl, ?_⟩
    rw [withoutEdges_append, hrecords]
    exact .overCapacity n m hm habove
  · have hfits : n.toNat ≤ s.par.rxBufCap := Nat.not_lt.1 habove
    obtain ⟨_, rfl, hexec⟩ := hdrained hfits
    cases hexec.symm.trans h
    refine ⟨_, rfl, ?_⟩
    rw [withoutEdges_append, hrecords]
    exact .drained n m _ hn hm hfits (by simp)

/-- RX_FLUSH ends a service that RX_INSPECT found in error (R131). -/
theorem rxFlush_endsOneService (hp : s.ph = Phase.rxFlush) (h : exec .rxFlush s = .next t) : EndsOneService s t := by
  obtain ⟨n, m, hn, hm, hrecords⟩ := hlaw.toFlush hp
  cases (rxFlushResult s).symm.trans h
  refine ⟨_, rfl, ?_⟩
  rw [withoutEdges_append, hrecords]
  exact .flushed n m hn hm

end

/-- No two phase codes are of one instruction (R63). -/
theorem decodePhase_injective : Function.Injective decodePhase := fun c d h =>
  BitVec.eq_of_toNat_eq (congrArg Prod.snd ((encode_decodePhase c).symm.trans (h ▸ encode_decodePhase d)))

/-- Of the checkpoints, MODE = RX leaves CAL_APPLY's and the ends of the receive service. -/
theorem sequencer_endsOneService {s t : State} (hs : s.Inv) (hlaw : s.ReceiveLaw) (hmode : s.par.mode = .rx)
    (happly : s.ph ≠ Phase.calApply) (h : exec (decodePhase s.ph) s = .next t) (hat : AtCheckpoint s (decodePhase s.ph)) :
    EndsOneService s t := by
  obtain ⟨hi, -⟩ | hi | ⟨hi, hn⟩ | ⟨hi, -⟩ | hi := hat
  · exact absurd (decodePhase_injective hi) happly
  · have hp : s.ph = Phase.txDelay := decodePhase_injective hi
    have htx : s.par.mode = .tx := hs.mode_tx (by simp [hp])
    exact absurd (htx.symm.trans hmode) (by decide)
  · exact rxInspect_endsOneService hlaw (decodePhase_injective hi) hn (hi ▸ h)
  · exact rxDrain_endsOneService hlaw (decodePhase_injective hi) (hi ▸ h)
  · exact rxFlush_endsOneService hlaw (decodePhase_injective hi) (hi ▸ h)

/-- A turn that is not the sequencer's makes no kick (R136), and the sequencer's makes one at its checkpoints only. -/
theorem step_kick_atCheckpoint {s t : State} (hstep : step s = .next t)
    (hkick : t.trace.count .kick = s.trace.count .kick + 1) :
    AtCheckpoint s.endTurn (decodePhase s.ph) ∧ exec (decodePhase s.ph) s.endTurn = .next t := by
  have hno : ¬ NoKick s.endTurn t := fun h => by
    have hsame : t.trace.count .kick = s.trace.count .kick := h
    omega
  have hstart := NoKick.refl s.endTurn
  obtain ⟨-, rfl | ⟨-, -, hexec⟩ | ⟨-, rfl⟩ | ⟨-, -, rfl⟩ | ⟨-, rfl⟩ | ⟨-, rfl⟩ | ⟨_, _, -, rfl⟩⟩ := step_turns hstep
  · exact absurd hstart hno
  · obtain ⟨hat, -⟩ | ⟨-, hnone⟩ := exec_kicks hexec
    · exact ⟨hat, hexec⟩
    · exact absurd hnone hno
  · exact absurd (hstart.record (r := .edge)) hno
  · exact absurd hstart hno
  · exact absurd (hstart.record (r := .reset .powerOn)) hno
  · exact absurd (hstart.record (r := .reset .watchdog)) hno
  · exact absurd hstart hno

/-- Settles O59: CONFIG is outside the receive service, every step keeps the law, and with the law a kick of the receive
service has exactly one service behind it. -/
theorem receiveServiceLaw : Obligations.ReceiveServiceLaw := by
  refine ⟨fun c => receiveLaw_config rfl, fun s t => step_receiveLaw, fun s t hs hlaw hmode hp hstep hkick => ?_⟩
  obtain ⟨hat, hexec⟩ := step_kick_atCheckpoint hstep hkick
  have hturn : s.endTurn.ReceiveLaw := { hlaw with }
  have hends : EndsOneService s.endTurn t := sequencer_endsOneService hs.endTurn hturn hmode hp hexec hat
  exact hends

end Sys2Proof.Machine
end

section
/-!
PROOFS, family 70_reset_and_hazards: the reset state and the resets (70_reset_and_hazards.md R160); then the two hazards of the event
latch, the lost edge (R166) and the stale edge (R167). Where the latch is set, an edge and its interrupt change nothing but TRACE and
the turns; the phases that end a receive service read neither, so it is all the same to them when the edge comes.
-/

namespace Sys2Proof.Machine

/-! ### Reset (R160) -/

/-- STATUS after a reset shows the mode alone. -/
theorem applyReset_status (c : ResetCause) (s : State) :
    (applyReset c s).status = some (if s.par.mode = .tx then 0x0000#16 else 0x1000#16) := by
  have hst : (applyReset c s).st = some .idle := rfl
  have hmode : (applyReset c s).par.mode = s.par.mode := rfl
  simp only [status_eq hst, hmode, applyReset_fatal, applyReset_hb, applyReset_irqPend, applyReset_evt, applyReset_ph]
  cases s.par.mode <;> rfl

/-- Settles O21: the two events are the reset operation with their cause. -/
theorem resetResult : Obligations.ResetResult := by
  rintro s i c (⟨rfl, rfl⟩ | ⟨rfl, rfl⟩)
  · exact ⟨rfl, rfl, applyReset_status .powerOn s⟩
  · exact ⟨rfl, rfl, applyReset_status .watchdog s⟩

/-- Right after reset the invariant holds: the reset event's state differs in TRACE alone, which the invariant does not read. -/
theorem resetOf_inv (c : Config) : (State.resetOf c).Inv :=
  { applyReset_inv (s := .resetOf c) rfl .powerOn with }

/-- Settles O29: the machine right after reset is that of one configuration. -/
theorem invariantAtReset : Obligations.InvariantAtReset :=
  ⟨resetOf_inv Config.free, resetOf_inv⟩

/-! ### What a phase does, whatever TRACE holds and whatever the turns are (R36, R79) -/

/-- `s` with the records `tr` in TRACE, `n` turns taken and the turns `ts` to come. -/
def State.within (s : State) (tr : List Record) (n : Nat) (ts : List Turn) : State :=
  { s with trace := tr, turn := n, script := ts }

/-- Instruction `i` takes `s` to `t` and appends the records `new`, whatever TRACE holds and whatever the turns are. -/
def DoesWithin (i : Instr) (s t : State) (new : List Record) : Prop :=
  ∀ tr n ts, exec i (s.within tr n ts) = .next (t.within (tr ++ new) n ts)

/-- `s` after `k` more draws, its service ended: the latch is clear and the machine re-arms. -/
def State.served (s : State) (k : Nat) : State :=
  { s.consume k with ph := Phase.rxArm, evt := false }

/-- RX_INSPECT where the count is 0 (R129). -/
theorem rxInspect_empty_doesWithin {s : State} (hn : s.answerAt 0 = 0) : DoesWithin .rxInspect s (s.served 1)
    [.port (.read s.par.aNumRxBytes 0x00#8), .kick] := by
  intro tr n ts
  have hread : (s.within tr n ts).answerAt 0 = 0x00#8 := hn
  rw [(rxInspectResult (s.within tr n ts)).1 hn, hread, List.append_assoc]
  rfl

/-- RX_INSPECT where the count is above 0: the latch stays, and RX_FLUSH is next, or RX_DRAIN with RXN written (R129). -/
theorem rxInspect_doesWithin {s : State} (hn : s.answerAt 0 ≠ 0) : ∃ v new, DoesWithin .rxInspect s v new
    ∧ v.mfault = s.mfault ∧ v.irqPend = s.irqPend ∧ v.evt = s.evt
    ∧ (v.ph = Phase.rxFlush ∨ v.ph = Phase.rxDrain ∧ ∃ n, v.rxn = some n) := by
  by_cases he : (s.answerAt 1).toNat % 32 = s.par.fifoErrCode.toNat
  · refine ⟨{ s.consume 2 with ph := Phase.rxFlush }, inspection s.par (s.answerAt 0) (s.answerAt 1), fun tr n ts => ?_,
      rfl, rfl, rfl, .inl rfl⟩
    rw [(rxInspectResult (s.within tr n ts)).2.1 hn he, List.append_assoc]
    rfl
  · refine ⟨{ s.consume 2 with ph := Phase.rxDrain, rxn := some (s.answerAt 0) },
      inspection s.par (s.answerAt 0) (s.answerAt 1), fun tr n ts => ?_, rfl, rfl, rfl, .inr ⟨rfl, _, rfl⟩⟩
    rw [(rxInspectResult (s.within tr n ts)).2.2 hn he, List.append_assoc]
    rfl

/-- RX_FLUSH (R131). -/
theorem rxFlush_doesWithin (s : State) : DoesWithin .rxFlush s (s.served 0)
    [.port (.strobe s.par.cmdSfrx), .diag (.fifoError .statusOverflow), .kick] :=
  fun tr n ts => rxFlushResult (s.within tr n ts)

/-- RX_DRAIN with RXN written: the drain, or the flush in its place (R130). -/
theorem rxDrain_doesWithin {s : State} {k : Byte} (hk : s.rxn = some k) :
    ∃ j new, DoesWithin .rxDrain s (s.served j) new := by
  by_cases habove : s.par.rxBufCap < k.toNat
  · exact ⟨0, [.port (.strobe s.par.cmdSfrx), .diag (.framingError none k.toNat), .kick],
      fun tr n ts => (rxDrainResult (s.within tr n ts) k hk).1 habove⟩
  · refine ⟨k.toNat, [.port (.readFifo k ((List.range k.toNat).map s.answerAt)),
      .diag (reportOf (parseRxPacket s.par.rxBufCap ((List.range k.toNat).map s.answerAt))), .kick], fun tr n ts => ?_⟩
    rw [exec_rxDrain (s := s.within tr n ts) hk, endService_eq,
      drainAndReport_of_le (s := s.within tr n ts) (Nat.le_of_not_lt habove), List.append_assoc]
    rfl

/-- Either phase that may follow RX_INSPECT ends the service. -/
theorem action_doesWithin {v : State} (h : v.ph = Phase.rxFlush ∨ v.ph = Phase.rxDrain ∧ ∃ n, v.rxn = some n) :
    ∃ j new, DoesWithin (decodePhase v.ph) v (v.served j) new := by
  obtain hp | ⟨hp, n, hn⟩ := h
  · rw [hp]
    exact ⟨0, _, rxFlush_doesWithin v⟩
  · rw [hp]
    exact rxDrain_doesWithin hn

/-! ### Turns with the latch set (R166, R167) -/

section
variable {s : State} {ts : List Turn} (hm : s.mfault = none) (hirq : s.irqPend = false)
include hm hirq

/-- A turn of the sequencer runs the phase in PH. -/
theorem DoesWithin.run {i : Instr} {t : State} {new tr : List Record} {n : Nat} (h : DoesWithin i s t new)
    (hi : decodePhase s.ph = i) :
    core.run 1 (s.within tr n (.sequencer :: ts)) = .next (t.within (tr ++ new) (n + 1) ts) := by
  subst hi
  exact run_one ((step_sequencer (s := s.within tr n (.sequencer :: ts)) hm rfl hirq).trans (h tr (n + 1) ts))

section
variable (he : s.evt = true)
include he

/-- A wait passes. -/
theorem run_wait_passes {c after : BitVec 5} (hp : s.ph = c)
    (hwaits : ∀ u, exec (decodePhase c) u = .next (awaitEvent after u)) (h : s.script = .sequencer :: ts) :
    core.run 1 s = .next ((s.toPhase after).within s.trace (s.turn + 1) ts) :=
  run_one (State.Listed.step_wait ⟨hm, hirq, rfl, h⟩ hp hwaits he)

/-- An edge and its interrupt leave nothing but the edge's record. -/
theorem run_edge_absorbed (h : s.script = .event 2#2 :: .event 3#2 :: ts) :
    core.run 2 s = .next (s.within (s.trace ++ [.edge]) (s.turn + 2) ts) := by
  have hlatch : s.interrupted 1 ts = s.within (s.trace ++ [.edge]) (s.turn + 2) ts := by
    simp [State.interrupted, State.within, hirq, he]
  rw [← hlatch]
  exact run_edge_isr hm h

/-- The same at any point of a run. -/
theorem run_edge_within {tr : List Record} {n : Nat} :
    core.run 2 (s.within tr n (.event 2#2 :: .event 3#2 :: ts)) = .next (s.within (tr ++ [.edge]) (n + 2) ts) :=
  run_edge_absorbed (s := s.within tr n (.event 2#2 :: .event 3#2 :: ts)) hm hirq he rfl

end

end

/-! ### The lost edge (R166) -/

section
variable {s : State} {later : List Turn} (hm : s.mfault = none) (hirq : s.irqPend = false) (he : s.evt = true)
include hm hirq he

/-- The edge comes after TX_WAIT has seen the one before it: one TX_COMPLETE clears the latch for both. -/
theorem run_txComplete_absorbs (hp : s.ph = Phase.txWait)
    (h : s.script = .sequencer :: .event 2#2 :: .event 3#2 :: .sequencer :: later) :
    core.run 4 s = .next { s with
      ph := Phase.txDelay
      evt := false
      hb := !s.hb
      seq := s.seq + 1
      script := later
      turn := s.turn + 4
      trace := s.trace ++ [.edge] } :=
  have hwait := run_wait_passes hm hirq he hp (fun _ => rfl) h
  have hedge := run_trans hwait (run_edge_absorbed hm hirq he rfl)
  run_trans hedge (run_one (step_txComplete ⟨hm, hirq, rfl, rfl⟩ rfl))

/-- RX_INSPECT with a count of 0 ends the service itself. -/
theorem run_rxInspect_absorbs (hp : s.ph = Phase.rxWait) (hn : s.answerAt 0 = 0)
    (h : s.script = .sequencer :: .event 2#2 :: .event 3#2 :: .sequencer :: later) :
    core.run 4 s = .next { s.consume 1 with
      ph := Phase.rxArm
      evt := false
      script := later
      turn := s.turn + 4
      trace := s.trace ++ [.edge, .port (.read s.par.aNumRxBytes 0x00#8), .kick] } := by
  have hwait := run_wait_passes hm hirq he hp (fun _ => rfl) h
  have hedge := run_trans hwait (run_edge_absorbed hm hirq he rfl)
  have hinspect := run_trans hedge
    ((rxInspect_empty_doesWithin hn).run (s := s.toPhase Phase.rxInspect) hm hirq rfl)
  rw [List.append_assoc] at hinspect
  exact hinspect

/-- RX_FLUSH ends the service. -/
theorem run_rxFlush_absorbs (hp : s.ph = Phase.rxFlush) (h : s.script = .event 2#2 :: .event 3#2 :: .sequencer :: later) :
    core.run 3 s = .next { s with
      ph := Phase.rxArm
      evt := false
      script := later
      turn := s.turn + 3
      trace := s.trace ++ [.edge, .port (.strobe s.par.cmdSfrx), .diag (.fifoError .statusOverflow), .kick] } := by
  have hedge := run_edge_absorbed hm hirq he h
  have hflush := run_trans hedge ((rxFlush_doesWithin s).run hm hirq (congrArg decodePhase hp))
  rw [List.append_assoc] at hflush
  exact hflush

/-- A receive service with a count above 0, in three runs: with no edge, with an edge before RX_INSPECT, and with an edge after
it. They end in the same state but for the edge's record and the turns. -/
theorem run_action_absorbs (hp : s.ph = Phase.rxWait) (hn : s.answerAt 0 ≠ 0) (later : List Turn) :
    ∃ (v : State) (j : Nat) (inspected acted : List Record), v.irqPend = false
      ∧ core.run 3 { s with script := [.sequencer, .sequencer, .sequencer] ++ later }
        = .next ((v.served j).within (s.trace ++ inspected ++ acted) (s.turn + 3) later)
      ∧ core.run 5 { s with script := [.sequencer, .event 2#2, .event 3#2, .sequencer, .sequencer] ++ later }
        = .next ((v.served j).within (s.trace ++ [.edge] ++ inspected ++ acted) (s.turn + 5) later)
      ∧ core.run 5 { s with script := [.sequencer, .sequencer, .event 2#2, .event 3#2, .sequencer] ++ later }
        = .next ((v.served j).within (s.trace ++ inspected ++ [.edge] ++ acted) (s.turn + 5) later) := by
  let b : State := s.toPhase Phase.rxInspect
  obtain ⟨v, inspected, hinspect, hkeepm, hkeepirq, hkeepe, hnext⟩ := rxInspect_doesWithin (s := b) hn
  obtain ⟨j, acted, hact⟩ := action_doesWithin hnext
  have hvm : v.mfault = none := hkeepm.trans hm
  have hvirq : v.irqPend = false := hkeepirq.trans hirq
  have hve : v.evt = true := hkeepe.trans he
  have hwait (ts : List Turn) :
      core.run 1 { s with script := .sequencer :: ts } = .next (b.within s.trace (s.turn + 1) ts) :=
    run_wait_passes (s := { s with script := .sequencer :: ts }) hm hirq he hp (fun _ => rfl) rfl
  have hinspected {tr n ts} : core.run 1 (b.within tr n (.sequencer :: ts)) = .next (v.within (tr ++ inspected) (n + 1) ts) :=
    hinspect.run (s := b) hm hirq rfl
  have hacted {tr n ts} :
      core.run 1 (v.within tr n (.sequencer :: ts)) = .next ((v.served j).within (tr ++ acted) (n + 1) ts) :=
    hact.run hvm hvirq rfl
  refine ⟨v, j, inspected, acted, hvirq, ?plain, ?before, ?after⟩
  case plain => exact run_trans (run_trans (hwait _) hinspected) hacted
  case before =>
    have hedge {tr n ts} := run_edge_within (s := b) (tr := tr) (n := n) (ts := ts) hm hirq he
    exact run_trans (run_trans (run_trans (hwait _) hedge) hinspected) hacted
  case after =>
    have hedge {tr n ts} := run_edge_within (tr := tr) (n := n) (ts := ts) hvm hvirq hve
    exact run_trans (run_trans (run_trans (hwait _) hinspected) hedge) hacted

end

/-- Settles O55: where the latch is set the edge adds its record only, and the service's end clears the latch as without it. -/
theorem lostEdgeIsAbsorbed : Obligations.LostEdgeIsAbsorbed := by
  intro s later hm hirq he
  refine ⟨run_txComplete_absorbs hm hirq he, run_rxInspect_absorbs hm hirq he, fun hp hn horder => ?_,
    run_rxFlush_absorbs hm hirq he⟩
  obtain ⟨v, j, inspected, acted, hvirq, hplain, hbefore, hafter⟩ := run_action_absorbs hm hirq he hp hn later
  obtain hfirst | hlast := horder
  · rw [← hfirst] at hbefore
    exact ⟨_, _, hbefore, hplain, rfl, rfl, hvirq, rfl, by simp [State.within], by simp [State.within]; omega⟩
  · rw [← hlast] at hafter
    exact ⟨_, _, hafter, hplain, rfl, rfl, hvirq, rfl, by simp [State.within], by simp [State.within]; omega⟩

/-! ### The stale edge (R167) -/

/-- Settles O56: the arm phase leaves the latch, so the wait after it passes. -/
theorem staleEdgePassesWait : Obligations.StaleEdgePassesWait := by
  intro s later hm hirq he h
  refine ⟨fun hp => ?transmit, fun hp => ?receive⟩
  case transmit =>
    have harm := run_one (step_txArm ⟨hm, hirq, rfl, h⟩ hp)
    have hwait := run_trans harm (run_one (State.Listed.step_wait ⟨hm, hirq, rfl, rfl⟩ rfl (fun _ => rfl) he))
    exact ⟨_, hwait, rfl, he, rfl⟩
  case receive =>
    have harm := run_one (step_rxArm ⟨hm, hirq, rfl, h⟩ hp)
    have hwait := run_trans harm (run_one (State.Listed.step_wait ⟨hm, hirq, rfl, rfl⟩ rfl (fun _ => rfl) he))
    exact ⟨_, hwait, rfl, he, rfl⟩

end Sys2Proof.Machine
end
